-- ==== Sys2Proof/Word.lean ====
section
/-! DEFINITION. The word types of the engine (`00_scope.md` R9): a byte is 8 bits, a word is 32 bits. -/

namespace Sys2Proof

/-- A byte of the serial line or of storage (R9). -/
abbrev Byte := BitVec 8

/-- A word: the unit of the page buffer, of a program command and of an address (R9). -/
abbrev Word := BitVec 32

end Sys2Proof
end

