-- ==== Sys2Proof/Config.lean ====
section
/-! DEFINITION. What is fixed before reset is released: the parameters of `00_scope.md` R6 with the constraints of
R7, and the free values the spec leaves open (the schedule and the draws of `10_state.md` R31). -/

namespace Sys2Proof

/-- What CHECKSUM is (R206, R207, D10): an uninterpreted function, known by a number only, or the default
instantiation of R207, which the spec gives from general knowledge for its test vectors. -/
inductive Checksum where
  | uninterpreted (which : Nat)
  | crc32
  deriving DecidableEq, Repr

/-- A valuation of the parameters that R6 leaves OPEN. -/
structure ParamValues where
  /-- `APP_BASE`, 32-bit byte address. -/
  appBase : Word
  /-- `FLASH_END`, 33-bit byte address, exclusive. -/
  flashEnd : BitVec 33
  /-- `TIMEOUT_INIT`. -/
  timeoutInit : Nat
  /-- `BUDGET_W`. -/
  budgetW : Nat
  /-- `SETTLE_A`. -/
  settleA : Nat
  /-- `SETTLE_F`. -/
  settleF : Nat
  /-- `NVM_TIMING`, opaque, carried in 32 bits (log 17). -/
  nvmTiming : Word
  /-- `CHECKSUM` together with `CK_INIT`. -/
  checksum : Checksum
  /-- `ERASED`. -/
  erased : Word
  deriving DecidableEq, Repr

/-- R7 (a) to (d), and the width R12 gives the settling-delay counter: a register of `BUDGET_W` bits holds both delays
(log 18). R7 (e) and (f) speak of fixed values only: `Config.page_size_words`, `Config.symbols_distinct`. -/
abbrev ParamValues.Ok (p : ParamValues) : Prop :=
  p.appBase.toNat % 1024 = 0 ∧
  p.appBase.toNat + 255 * 1024 + 1024 ≤ 2 ^ 32 ∧
  p.appBase.toNat + 8 ≤ p.flashEnd.toNat ∧
  p.flashEnd.toNat ≤ 2 ^ 32 ∧
  p.flashEnd.toNat % 1024 = 0 ∧
  1 ≤ p.timeoutInit ∧
  p.timeoutInit ≤ 2 ^ p.budgetW - 1 ∧
  p.settleA ≤ 2 ^ p.budgetW - 1 ∧
  p.settleF ≤ 2 ^ p.budgetW - 1

/-- A valuation that carries the proof of its constraints (V8: "the model's parameter structure carries the constraints as
proofs"). The default values only show that such a valuation exists: they are the examples of `95_test_vectors.md`,
and nothing can prove that a given valuation is this one. -/
structure Params where
  val : ParamValues := ⟨0x08001000#32, 0x08020000#33, 3, 32, 2, 2, 0#32, .crc32, 0xFFFFFFFF#32⟩
  ok : val.Ok := by decide
  deriving DecidableEq, Repr, Inhabited

/-- Whose turn it is (`60_exceptions.md` R245: three agents and the drop step; R192: the transport's acceptance;
R261: the reset event). -/
inductive Turn where
  /-- The sequencer performs the operation `st` names. -/
  | sequencer
  /-- The streaming driver takes one byte (R203). -/
  | driver
  /-- The host appends one byte to `line` (R218). -/
  | host (b : Byte)
  /-- The environment drops an unsolicited byte (R197). -/
  | drop
  /-- From now on the transport can, or cannot, accept a byte (R192). -/
  | transport (ready : Bool)
  /-- The reset event (R261). -/
  | reset
  deriving DecidableEq, Repr, Inhabited

namespace Config

/-! ## Parameters with one value (R6) -/

/-- `PAGE_SIZE`. -/
abbrev pageSize : Nat := 1024
/-- `PAGE_WORDS`. -/
abbrev pageWords : Nat := 256
/-- `CSUM_BYTES`. -/
abbrev csumBytes : Nat := 4
/-- `MAGIC` (D3). -/
abbrev magic : Byte := 0xAA#8
/-- `SYM_READY`, the character 2 (R71). -/
abbrev symReady : Byte := 0x32#8
/-- `SYM_ACK`, the character S (R71). -/
abbrev symAck : Byte := 0x53#8
/-- `SYM_PAGE`, the character P (R71). -/
abbrev symPage : Byte := 0x50#8
/-- `SYM_TIMEOUT`, the character T (R71). -/
abbrev symTimeout : Byte := 0x54#8
/-- `SYM_CSUM`, the character C (R71). -/
abbrev symCsum : Byte := 0x43#8
/-- `SYM_ERROR`, the character E (R71). -/
abbrev symError : Byte := 0x45#8
/-- `SYM_DONE`, the character D (R71). -/
abbrev symDone : Byte := 0x44#8

/-- R7 (e). -/
theorem page_size_words : pageSize = 4 * pageWords := by decide

/-- R7 (f). -/
theorem symbols_distinct :
    [symReady, symAck, symPage, symTimeout, symCsum, symError, symDone].Pairwise (· ≠ ·) := by decide

/-! ## Free values: no body, so nothing can be proved of what they are -/

/-- The valuation `State.reset` starts with (R6: OPEN). -/
opaque params : Params

/-- The schedule once the listed script is used up (R31: which agent steps next, and what the host sends). -/
opaque freeTurn : Nat → Turn

/-- The draws: the value the n-th read of a word that no rule fixes returns (R215, log 16). -/
opaque freeWord : Nat → Word

/-- `CK_INIT` of an uninterpreted CHECKSUM (R205). -/
opaque checksumInit : Nat → Word

/-- An uninterpreted CHECKSUM: what feeding a block of words to an accumulator leaves in it (R206). -/
opaque checksumBlock : Nat → Word → List Word → Word

end Config

end Sys2Proof
end

