-- ==== Sys2Proof/Syntax.lean ====
section
/-! DEFINITION. The syntax: one constructor for each row of `spec/opcode_table.json` (`30_encoding.md` R70 to R79). -/

namespace Sys2Proof

/-- The destination of a streaming transfer (`10_state.md` R25; R79: 0 = `PAGE_BUF`, 1 = `CSUM_SLOT`). -/
inductive Dest where
  | pageBuf
  | csumSlot
  deriving DecidableEq, Repr

/-- How many bytes a destination holds (R20, R21). -/
def Dest.size : Dest → Nat
  | .pageBuf => 1024
  | .csumSlot => 4

/-- The four kinds of host frame (R72). -/
inductive FrameKind where
  | magic
  | count
  | page
  | csum
  deriving DecidableEq, Repr

/-- The encoding spaces (R70): wire to the host, wire from the host (where the consumer decides the kind, R72),
operations, port commands. -/
inductive Space where
  | d2h
  | h2d (kind : FrameKind)
  | state
  | port
  deriving DecidableEq, Repr

/-- Every row of the opcode table. -/
inductive Instr where
  -- D2H: the seven symbols (R71)
  | symReady
  | symAck
  | symPage
  | symTimeout
  | symCsum
  | symError
  | symDone
  -- H2D: the four frames (R72)
  | magicFrame (m : Byte)
  | countFrame (n : Byte)
  | pageFrame (b : List Byte)
  | csumFrame (c : Word)
  -- STATE: the 32 operations (R11, R76)
  | sSettleA
  | sAnnounce
  | sRecvMagic
  | sAuth
  | sAck
  | sRecvCount
  | sUnlock
  | sSetTiming
  | sLoopTest
  | sCrcReset
  | sArmPage
  | sReqPage
  | sAwaitPage
  | sToRearm
  | sToTx
  | sCrcCalc
  | sArmCsum
  | sReqCsum
  | sAwaitCsum
  | sVerify
  | sErrTx
  | sErase
  | sProgram
  | sAdvance
  | sLock
  | sDoneTx
  | sSettleF
  | sDisable
  | sBootRead
  | sBootVtbr
  | sBootJump
  | sHandoff
  -- PORT: the 15 commands (R79)
  | txSend (b : Byte)
  | rxRecv
  | trDisable
  | sdArm (dest : Dest) (len : BitVec 11)
  | sdDone
  | ckReset
  | ckBlock
  | nvUnlock
  | nvSetTiming (v : Word)
  | nvErasePage (addr : Word)
  | nvProgramWord (addr data : Word)
  | nvLock
  | nvRead32 (addr : Word)
  | sysSetVtbr (addr : Word)
  | sysJump (entry : Word)
  deriving DecidableEq, Repr

/-- Which encoding space an instruction belongs to (R70; the table's `format`). -/
def Instr.space : Instr → Space
  | .symReady | .symAck | .symPage | .symTimeout | .symCsum | .symError | .symDone => .d2h
  | .magicFrame _ => .h2d .magic
  | .countFrame _ => .h2d .count
  | .pageFrame _ => .h2d .page
  | .csumFrame _ => .h2d .csum
  | .sSettleA | .sAnnounce | .sRecvMagic | .sAuth | .sAck | .sRecvCount | .sUnlock | .sSetTiming
  | .sLoopTest | .sCrcReset | .sArmPage | .sReqPage | .sAwaitPage | .sToRearm | .sToTx | .sCrcCalc
  | .sArmCsum | .sReqCsum | .sAwaitCsum | .sVerify | .sErrTx | .sErase | .sProgram | .sAdvance
  | .sLock | .sDoneTx | .sSettleF | .sDisable | .sBootRead | .sBootVtbr | .sBootJump | .sHandoff => .state
  | .txSend _ | .rxRecv | .trDisable | .sdArm _ _ | .sdDone | .ckReset | .ckBlock | .nvUnlock
  | .nvSetTiming _ | .nvErasePage _ | .nvProgramWord _ _ | .nvLock | .nvRead32 _ | .sysSetVtbr _
  | .sysJump _ => .port

end Sys2Proof
end

