-- ==== Sys2Proof/WellFormed.lean ====
section
/-! DEFINITION. Which terms of the syntax the spec's formats admit (`30_encoding.md` R72, R79; `44_interfaces.md`
R200, R211, R213, R215). -/

namespace Sys2Proof

/-- The operands the spec's formats admit: a page frame of exactly 1024 bytes (R72), an arm with one of the two
destinations and its length (R79, R200), a page-aligned erase address (R211), word-aligned program and read addresses
(R213, R215). -/
def Instr.wellFormed : Instr → Bool
  | .pageFrame b => b.length == 1024
  | .sdArm dest len => len.toNat == dest.size
  | .nvErasePage addr => addr.toNat % 1024 == 0
  | .nvProgramWord addr _ => addr.toNat % 4 == 0
  | .nvRead32 addr => addr.toNat % 4 == 0
  | .symReady | .symAck | .symPage | .symTimeout | .symCsum | .symError | .symDone
  | .magicFrame _ | .countFrame _ | .csumFrame _
  | .sSettleA | .sAnnounce | .sRecvMagic | .sAuth | .sAck | .sRecvCount | .sUnlock | .sSetTiming
  | .sLoopTest | .sCrcReset | .sArmPage | .sReqPage | .sAwaitPage | .sToRearm | .sToTx | .sCrcCalc
  | .sArmCsum | .sReqCsum | .sAwaitCsum | .sVerify | .sErrTx | .sErase | .sProgram | .sAdvance
  | .sLock | .sDoneTx | .sSettleF | .sDisable | .sBootRead | .sBootVtbr | .sBootJump | .sHandoff
  | .txSend _ | .rxRecv | .trDisable | .sdDone | .ckReset | .ckBlock | .nvUnlock
  | .nvSetTiming _ | .nvLock | .sysSetVtbr _ | .sysJump _ => true

end Sys2Proof
end

