-- ==== Sys2Proof/Decode.lean ====
section
/-! DEFINITION. Byte order, the codes of the three encoding spaces, the decoder and the encoder
(`20_memory.md` R42 to R45, `30_encoding.md` R70 to R79). -/

namespace Sys2Proof

/-! ## Byte order: little-endian everywhere (R42) -/

/-- Byte `k` of a word: bits `8k+7 : 8k` (R9). -/
def byteOf (w : Word) (k : Nat) : Byte := w.extractLsb' (8 * k) 8

/-- The word whose bytes, least significant first, are these (R44, R45). -/
def leWord (b0 b1 b2 b3 : Byte) : Word := b3 ++ b2 ++ b1 ++ b0

/-- The four bytes of a word in address order, which is line order (R42, R46). -/
def leBytes (w : Word) : List Byte := [byteOf w 0, byteOf w 1, byteOf w 2, byteOf w 3]

/-- `n` bytes of a number, least significant first. -/
def natBytes : Nat → Nat → List Byte
  | 0, _ => []
  | n + 1, w => BitVec.ofNat 8 w :: natBytes n (w / 256)

/-! ## Codes of the operation space (R11, R76) -/

namespace Code
abbrev settleA : BitVec 5 := 0#5
abbrev announce : BitVec 5 := 1#5
abbrev recvMagic : BitVec 5 := 2#5
abbrev auth : BitVec 5 := 3#5
abbrev ack : BitVec 5 := 4#5
abbrev recvCount : BitVec 5 := 5#5
abbrev unlock : BitVec 5 := 6#5
abbrev setTiming : BitVec 5 := 7#5
abbrev loopTest : BitVec 5 := 8#5
abbrev crcReset : BitVec 5 := 9#5
abbrev armPage : BitVec 5 := 10#5
abbrev reqPage : BitVec 5 := 11#5
abbrev awaitPage : BitVec 5 := 12#5
abbrev toRearm : BitVec 5 := 13#5
abbrev toTx : BitVec 5 := 14#5
abbrev crcCalc : BitVec 5 := 15#5
abbrev armCsum : BitVec 5 := 16#5
abbrev reqCsum : BitVec 5 := 17#5
abbrev awaitCsum : BitVec 5 := 18#5
abbrev verify : BitVec 5 := 19#5
abbrev errTx : BitVec 5 := 20#5
abbrev erase : BitVec 5 := 21#5
abbrev program : BitVec 5 := 22#5
abbrev advance : BitVec 5 := 23#5
abbrev lock : BitVec 5 := 24#5
abbrev doneTx : BitVec 5 := 25#5
abbrev settleF : BitVec 5 := 26#5
abbrev disable : BitVec 5 := 27#5
abbrev bootRead : BitVec 5 := 28#5
abbrev bootVtbr : BitVec 5 := 29#5
abbrev bootJump : BitVec 5 := 30#5
abbrev handoff : BitVec 5 := 31#5
end Code

/-! ## Codes of the port command space: `port[7:4] ++ cmd[3:0]` (R79) -/

namespace PortCode
abbrev txSend : Byte := 0x10#8
abbrev rxRecv : Byte := 0x20#8
abbrev trDisable : Byte := 0x30#8
abbrev sdArm : Byte := 0x40#8
abbrev sdDone : Byte := 0x41#8
abbrev ckReset : Byte := 0x50#8
abbrev ckBlock : Byte := 0x51#8
abbrev nvUnlock : Byte := 0x60#8
abbrev nvSetTiming : Byte := 0x61#8
abbrev nvErasePage : Byte := 0x62#8
abbrev nvProgramWord : Byte := 0x63#8
abbrev nvLock : Byte := 0x64#8
abbrev nvRead32 : Byte := 0x65#8
abbrev sysSetVtbr : Byte := 0x70#8
abbrev sysJump : Byte := 0x71#8
end PortCode

/-! ## Decoding -/

/-- Why bytes are no instruction of a space. All safe: no run from reset presents such bytes (R78, V3). -/
inductive DecodeError where
  /-- A port command code that R79 does not assign (V3: refuse). -/
  | unassignedPortCode (code : Byte)
  /-- A byte that is none of the seven symbols (R78: never emitted). -/
  | notASymbol (b : Byte)
  /-- A number above 31 where a 5-bit state code stands (R76). -/
  | stateCodeTooWide (b : Byte)
  /-- Too few or too many bytes for the code, or for the frame kind (R72, R79). -/
  | wrongLength (bytes : Nat)
  /-- Bits of an operand field that R79 does not give it. -/
  | operandTooWide
  deriving DecidableEq, Repr

/-- The operation a state code names (R11). Every one of the 32 codes is used (R78). -/
def decodeState (c : BitVec 5) : Instr :=
  match c.toNat with
  | 0 => .sSettleA
  | 1 => .sAnnounce
  | 2 => .sRecvMagic
  | 3 => .sAuth
  | 4 => .sAck
  | 5 => .sRecvCount
  | 6 => .sUnlock
  | 7 => .sSetTiming
  | 8 => .sLoopTest
  | 9 => .sCrcReset
  | 10 => .sArmPage
  | 11 => .sReqPage
  | 12 => .sAwaitPage
  | 13 => .sToRearm
  | 14 => .sToTx
  | 15 => .sCrcCalc
  | 16 => .sArmCsum
  | 17 => .sReqCsum
  | 18 => .sAwaitCsum
  | 19 => .sVerify
  | 20 => .sErrTx
  | 21 => .sErase
  | 22 => .sProgram
  | 23 => .sAdvance
  | 24 => .sLock
  | 25 => .sDoneTx
  | 26 => .sSettleF
  | 27 => .sDisable
  | 28 => .sBootRead
  | 29 => .sBootVtbr
  | 30 => .sBootJump
  | _ => .sHandoff

/-- The symbol a device-to-host byte is (R71). -/
def decodeSymbol (b : Byte) : Except DecodeError Instr :=
  if b = Config.symReady then .ok .symReady
  else if b = Config.symAck then .ok .symAck
  else if b = Config.symPage then .ok .symPage
  else if b = Config.symTimeout then .ok .symTimeout
  else if b = Config.symCsum then .ok .symCsum
  else if b = Config.symError then .ok .symError
  else if b = Config.symDone then .ok .symDone
  else .error (.notASymbol b)

/-- A host frame of a kind. No byte value is illegal: only the length counts (R72, R73, R74, R78). -/
def decodeFrame : FrameKind → List Byte → Except DecodeError Instr
  | .magic, [m] => .ok (.magicFrame m)
  | .count, [n] => .ok (.countFrame n)
  | .csum, [c0, c1, c2, c3] => .ok (.csumFrame (leWord c0 c1 c2 c3))
  | .page, bs => if bs.length = 1024 then .ok (.pageFrame bs) else .error (.wrongLength bs.length)
  | _, bs => .error (.wrongLength bs.length)

/-- A command without operand bytes. -/
def noOperand (i : Instr) : List Byte → Except DecodeError Instr
  | [] => .ok i
  | bs => .error (.wrongLength bs.length)

/-- A command with one 32-bit operand, least significant byte first. -/
def wordOperand (f : Word → Instr) : List Byte → Except DecodeError Instr
  | [b0, b1, b2, b3] => .ok (f (leWord b0 b1 b2 b3))
  | bs => .error (.wrongLength bs.length)

/-- The operands of `SD.ARM`: a 16-bit field, least significant byte first, with `dest` in bit 0 and `len` in bits 11
to 1 (R79 gives the widths, log 9 the places). -/
def armOperand : List Byte → Except DecodeError Instr
  | [b0, b1] =>
    if b1.extractLsb' 4 4 = 0#4 then
      .ok (.sdArm (if b0.getLsbD 0 then .csumSlot else .pageBuf) ((b1 ++ b0).extractLsb' 1 11))
    else .error .operandTooWide
  | bs => .error (.wrongLength bs.length)

/-- A port command: its code and the operand bytes beside it (R79; their layout is log 9). -/
def decodePort (code : Byte) (ops : List Byte) : Except DecodeError Instr :=
  if code = PortCode.txSend then
    match ops with
    | [b] => .ok (.txSend b)
    | bs => .error (.wrongLength bs.length)
  else if code = PortCode.rxRecv then noOperand .rxRecv ops
  else if code = PortCode.trDisable then noOperand .trDisable ops
  else if code = PortCode.sdArm then armOperand ops
  else if code = PortCode.sdDone then noOperand .sdDone ops
  else if code = PortCode.ckReset then noOperand .ckReset ops
  else if code = PortCode.ckBlock then noOperand .ckBlock ops
  else if code = PortCode.nvUnlock then noOperand .nvUnlock ops
  else if code = PortCode.nvSetTiming then wordOperand .nvSetTiming ops
  else if code = PortCode.nvErasePage then wordOperand .nvErasePage ops
  else if code = PortCode.nvProgramWord then
    match ops with
    | [a0, a1, a2, a3, d0, d1, d2, d3] => .ok (.nvProgramWord (leWord a0 a1 a2 a3) (leWord d0 d1 d2 d3))
    | bs => .error (.wrongLength bs.length)
  else if code = PortCode.nvLock then noOperand .nvLock ops
  else if code = PortCode.nvRead32 then wordOperand .nvRead32 ops
  else if code = PortCode.sysSetVtbr then wordOperand .sysSetVtbr ops
  else if code = PortCode.sysJump then wordOperand .sysJump ops
  else .error (.unassignedPortCode code)

/-- The decoder: total on any bytes of any space. -/
def decode : Space → List Byte → Except DecodeError Instr
  | .d2h, [b] => decodeSymbol b
  | .h2d k, bs => decodeFrame k bs
  | .state, [b] =>
    if b.extractLsb' 5 3 = 0#3 then .ok (decodeState (b.extractLsb' 0 5)) else .error (.stateCodeTooWide b)
  | .port, code :: ops => decodePort code ops
  | _, bs => .error (.wrongLength bs.length)

/-! ## Encoding -/

/-- The operand field of `SD.ARM` (see `armOperand`). -/
def armField (dest : Dest) (len : BitVec 11) : BitVec 16 :=
  0#4 ++ len ++ (match dest with | .pageBuf => 0#1 | .csumSlot => 1#1)

/-- The encoder: the bytes of an instruction in its space, from R71, R72, R76 and R79. -/
def encode : Instr → List Byte
  | .symReady => [Config.symReady]
  | .symAck => [Config.symAck]
  | .symPage => [Config.symPage]
  | .symTimeout => [Config.symTimeout]
  | .symCsum => [Config.symCsum]
  | .symError => [Config.symError]
  | .symDone => [Config.symDone]
  | .magicFrame m => [m]
  | .countFrame n => [n]
  | .pageFrame b => b
  | .csumFrame c => leBytes c
  | .sSettleA => [0x00#8]
  | .sAnnounce => [0x01#8]
  | .sRecvMagic => [0x02#8]
  | .sAuth => [0x03#8]
  | .sAck => [0x04#8]
  | .sRecvCount => [0x05#8]
  | .sUnlock => [0x06#8]
  | .sSetTiming => [0x07#8]
  | .sLoopTest => [0x08#8]
  | .sCrcReset => [0x09#8]
  | .sArmPage => [0x0A#8]
  | .sReqPage => [0x0B#8]
  | .sAwaitPage => [0x0C#8]
  | .sToRearm => [0x0D#8]
  | .sToTx => [0x0E#8]
  | .sCrcCalc => [0x0F#8]
  | .sArmCsum => [0x10#8]
  | .sReqCsum => [0x11#8]
  | .sAwaitCsum => [0x12#8]
  | .sVerify => [0x13#8]
  | .sErrTx => [0x14#8]
  | .sErase => [0x15#8]
  | .sProgram => [0x16#8]
  | .sAdvance => [0x17#8]
  | .sLock => [0x18#8]
  | .sDoneTx => [0x19#8]
  | .sSettleF => [0x1A#8]
  | .sDisable => [0x1B#8]
  | .sBootRead => [0x1C#8]
  | .sBootVtbr => [0x1D#8]
  | .sBootJump => [0x1E#8]
  | .sHandoff => [0x1F#8]
  | .txSend b => [PortCode.txSend, b]
  | .rxRecv => [PortCode.rxRecv]
  | .trDisable => [PortCode.trDisable]
  | .sdArm dest len =>
    [PortCode.sdArm, (armField dest len).extractLsb' 0 8, (armField dest len).extractLsb' 8 8]
  | .sdDone => [PortCode.sdDone]
  | .ckReset => [PortCode.ckReset]
  | .ckBlock => [PortCode.ckBlock]
  | .nvUnlock => [PortCode.nvUnlock]
  | .nvSetTiming v => PortCode.nvSetTiming :: leBytes v
  | .nvErasePage addr => PortCode.nvErasePage :: leBytes addr
  | .nvProgramWord addr data => PortCode.nvProgramWord :: (leBytes addr ++ leBytes data)
  | .nvLock => [PortCode.nvLock]
  | .nvRead32 addr => PortCode.nvRead32 :: leBytes addr
  | .sysSetVtbr addr => PortCode.sysSetVtbr :: leBytes addr
  | .sysJump entry => PortCode.sysJump :: leBytes entry

/-! ## The table's numbering of bits -/

/-- How many operand bytes stand beside a port command code (none for a code that is not assigned). -/
def portOperandBytes (code : Byte) : Option Nat :=
  if code = PortCode.txSend then some 1
  else if code = PortCode.sdArm then some 2
  else if code = PortCode.nvProgramWord then some 8
  else if code ∈ [PortCode.nvSetTiming, PortCode.nvErasePage, PortCode.nvRead32, PortCode.sysSetVtbr,
      PortCode.sysJump] then some 4
  else if code ∈ [PortCode.rxRecv, PortCode.trDisable, PortCode.sdDone, PortCode.ckReset, PortCode.ckBlock,
      PortCode.nvUnlock, PortCode.nvLock] then some 0
  else none

/-- Which space a bare table word is read in. The spaces overlap (R70: each is numbered on its own) and the table's
`format` is not part of the word, so an order is fixed (log 9): by width first (8192 bits a PAGE frame, 32 bits a CSUM
frame, more than 8 bits a port command with its operands), then, for one byte, an operation, a symbol, a port
command, the authenticating MAGIC byte, and any other byte a COUNT frame. -/
def tableSpace (nbits w : Nat) : Space :=
  let b := BitVec.ofNat 8 w
  if nbits = 8192 then .h2d .page
  else if nbits = 32 then .h2d .csum
  else if 8 < nbits then .port
  else if b.toNat < 32 then .state
  else if b ∈ [Config.symReady, Config.symAck, Config.symPage, Config.symTimeout, Config.symCsum, Config.symError,
      Config.symDone] then .d2h
  else if (portOperandBytes b).isSome then .port
  else if b = Config.magic then .h2d .magic
  else .h2d .count

/-- The bytes a table word stands for, the first byte from bits 7 to 0; operand bits above the table's are 0. -/
def tableBytes (nbits w : Nat) : List Byte :=
  match tableSpace nbits w with
  | .h2d .page => natBytes 1024 w
  | .h2d .csum => natBytes 4 w
  | .port => natBytes (1 + (portOperandBytes (BitVec.ofNat 8 w)).getD 0) w
  | _ => natBytes 1 w

/-- The instruction the decoder reads from a table word. -/
def decodeTableWord (nbits w : Nat) : Option Instr :=
  (decode (tableSpace nbits w) (tableBytes nbits w)).toOption

end Sys2Proof
end

