-- ==== Sys2Proof/Machine/State.lean ====
section
/-! DEFINITION. The state of the engine and its surroundings (`10_state.md` R10 to R30) as plain data, the reasons a
run stops, and the state right after reset. -/

namespace Sys2Proof.Machine

/-- The model faults (R29, R241). The step that meets one records it in `State.fault` (`Machine/Ops.lean`), and every
later step ends in it until a reset event. All are safe: the source defines no behaviour there, and the model stops. -/
inductive Fault where
  /-- Raised by a storage command whose range is not wholly below `FLASH_END` (R212, R156). Safe. -/
  | storageOutOfRange
  /-- Raised by an erase or a program while storage is locked (R210). Safe. -/
  | storageLocked
  /-- Raised by a program of a word that does not read as erased; the word becomes indeterminate (R213). Safe. -/
  | programNotErased
  /-- Raised by a send with the transmitter off or a receive with the receiver off (R193). Safe. -/
  | transportDisabled
  /-- Raised at power-on by a valuation that breaks a constraint (V8), and by a storage command at a misaligned address,
  which only such a valuation could bring about (R48). Safe. -/
  | parameterConstraint
  deriving DecidableEq, Repr

/-- What the model gives no meaning to. All are safe: none is reached from reset. -/
inductive Refusal where
  /-- Raised by `exec` for an instruction that has no meaning yet. -/
  | notModelled (mnemonic : String)
  /-- Raised by the step on a session event that is no instruction of its space (R78, V3). -/
  | undecodable (why : DecodeError)
  /-- Raised by a driver step whose byte index lies outside its destination, which has no such byte (R20, R21, R203).
  The sequencer never refuses (R9). -/
  | driverOutsideDestination (index : Nat)
  deriving DecidableEq, Repr

/-- Storage content, a byte per cell, in one canonical form: addresses strictly rising. An address that is not listed
is **indeterminate** (R27, R215): it reads as no byte. -/
abbrev Memory := List Host.Cell

/-- The canonical form. No listed entry can equal what an unlisted address reads as, since that is no byte at all. -/
abbrev Memory.wf (m : Memory) : Prop := m.Pairwise fun c d => c.1 < d.1

/-- One event of a session (R80): a turn of an agent, or a transaction presented as bytes of an encoding space. -/
inductive Event where
  | turn (t : Turn)
  | transaction (space : Space) (bytes : List Byte)
  deriving DecidableEq, Repr

/-- The state (R10), and after it the model's own fields. -/
structure State where
  /-- R11: the state register, the engine's program counter. -/
  st : BitVec 5
  /-- R12: the settling-delay counter, below `2 ^ BUDGET_W` (log 18). -/
  dly : Nat
  /-- R13. -/
  rxByte : Byte
  /-- R14. -/
  cursor : Word
  /-- R15. -/
  remaining : Byte
  /-- R16: the Timeout Budget, below `2 ^ BUDGET_W`. -/
  budget : Nat
  /-- R17. -/
  crcLocal : Word
  /-- R18. -/
  widx : BitVec 9
  /-- R19. -/
  entry : Word
  /-- R20. -/
  pageBuf : Vector Word 256
  /-- R21. -/
  csumSlot : Word
  /-- R24: the transcript, oldest first. -/
  txLog : List Byte
  /-- R24: bytes sent by the host and not yet taken, oldest first. -/
  line : List Byte
  /-- R24. -/
  rxEn : Bool
  /-- R24. -/
  txEn : Bool
  /-- R25. -/
  sdArmed : Bool
  /-- R25. -/
  sdDest : Dest
  /-- R25. -/
  sdLen : Nat
  /-- R25. -/
  sdCnt : Nat
  /-- R25: the transfer-complete flag. -/
  sdDone : Bool
  /-- R26: the accumulator. -/
  ckAcc : Word
  /-- R27. -/
  nvLocked : Bool
  /-- R27: the access timing, `none` when unset. -/
  nvTiming : Option Word
  /-- R27. -/
  nvMem : Memory
  /-- R28. -/
  vtbr : Word
  /-- R28. -/
  handoff : Option Word
  /-- R29. -/
  fault : Option Fault
  /-- The model's own: the parameter valuation (R6), which no step changes (log 2). -/
  cfg : Params
  /-- The model's own: the transport can accept a byte now (R192, log 7). -/
  txReady : Bool
  /-- The model's own: the events that happen next, in this order (R31, R80, log 1). -/
  script : List Event
  /-- The model's own: how many turns the free schedule has given (log 1). -/
  turnCount : Nat
  /-- The model's own: how many draws were made (R215, log 4, log 16). -/
  draws : Nat
  deriving DecidableEq, Repr

/-- R30 under a valuation of the parameters, storage wholly indeterminate. A register that R30 leaves unspecified is
zero; `sd.dest` and `sd.len` start as `PAGE_BUF` and 1024, so that R200 holds of them (log 3). -/
def State.initial (p : Params) : State where
  st := Code.settleA
  dly := p.val.settleA
  rxByte := 0#8
  cursor := 0#32
  remaining := 0#8
  budget := 0
  crcLocal := 0#32
  widx := 0#9
  entry := 0#32
  pageBuf := Vector.replicate 256 0#32
  csumSlot := 0#32
  txLog := []
  line := []
  rxEn := true
  txEn := true
  sdArmed := false
  sdDest := .pageBuf
  sdLen := 1024
  sdCnt := 0
  sdDone := false
  ckAcc := 0#32
  nvLocked := true
  nvTiming := none
  nvMem := []
  vtbr := 0#32
  handoff := none
  fault := none
  cfg := p
  txReady := true
  script := []
  turnCount := 0
  draws := 0

/-- The machine right after reset, under the free valuation. -/
def State.reset : State := State.initial Config.params

end Sys2Proof.Machine
end

