-- ==== Sys2Proof/Machine/Operands.lean ====
section
/-! DEFINITION. The operand forms: bytes of the page buffer and of the checksum slot, and the addresses the engine
forms (`20_memory.md` R44 to R46, `30_encoding.md` R74). -/

namespace Sys2Proof.Machine

/-- A word with its byte `k` replaced (R44, R45). -/
def setByteOf (w : Word) (k : Nat) (b : Byte) : Word :=
  leWord (if k = 0 then b else byteOf w 0) (if k = 1 then b else byteOf w 1)
    (if k = 2 then b else byteOf w 2) (if k = 3 then b else byteOf w 3)

/-- `page_buf.byte[k]` (R44). -/
def pageByte (buf : Vector Word 256) (k : Nat) : Option Byte :=
  buf[k / 4]?.map fun w => byteOf w (k % 4)

/-- `page_buf.byte[k] <- b` (R44, R46); no effect where the buffer has no such byte. -/
def setPageByte (buf : Vector Word 256) (k : Nat) (b : Byte) : Vector Word 256 :=
  if h : k / 4 < 256 then buf.set (k / 4) (setByteOf buf[k / 4] (k % 4) b) h else buf

/-- `page_buf[widx]`, the data operand of `S_PROGRAM` (R152). For an index above 255, which R18 never lets `widx` have
at this operation, no rule states the word: it is a draw (log 16). -/
def programData (s : State) : Word :=
  if h : s.widx.toNat < 256 then s.pageBuf[s.widx.toNat] else Config.freeWord s.draws

/-- How many draws were made once the data operand of `S_PROGRAM` is used. -/
def programDraws (s : State) : Nat := if s.widx.toNat < 256 then s.draws else s.draws + 1

/-- The program address `cursor + zext_32(widx) * 4` (R74). -/
def programAddr (s : State) : Word := s.cursor + s.widx.setWidth 32 * 4#32

/-- The address of the entry vector, `APP_BASE + 4` (R41, R174). -/
def entryVectorAddr (s : State) : Word := s.cfg.val.appBase + 4#32

/-- The 256 words of the buffer in ascending index order (R128). -/
def bufferWords (s : State) : List Word := s.pageBuf.toList

/-- Where a byte of the transfer goes: byte `k` of the destination (R46, R203). -/
def storeStreamByte (dest : Dest) (k : Nat) (b : Byte) (s : State) : State :=
  match dest with
  | .pageBuf => { s with pageBuf := setPageByte s.pageBuf k b }
  | .csumSlot => { s with csumSlot := setByteOf s.csumSlot k b }

end Sys2Proof.Machine
end

