-- ==== Sys2Proof/Machine/Checksum.lean ====
section
/-! DEFINITION. The checksum engine's function (`44_interfaces.md` R205 to R208). CHECKSUM is a parameter; R207's
default instantiation is one of its values. -/

namespace Sys2Proof.Machine

/-- One of R207's 32 rounds. -/
def crcRound (acc : Word) : Word :=
  if acc.getLsbD 31 then (acc <<< 1) ^^^ 0x04C11DB7#32 else acc <<< 1

/-- `n` rounds. -/
def crcRounds : Nat → Word → Word
  | 0, acc => acc
  | n + 1, acc => crcRounds n (crcRound acc)

/-- R207's `feed`. -/
def crcFeed (acc w : Word) : Word := crcRounds 32 (acc ^^^ w)

/-- `CK_INIT` of a checksum (R205, R207). -/
def ckInit : Checksum → Word
  | .uninterpreted which => Config.checksumInit which
  | .crc32 => 0xFFFFFFFF#32

/-- What feeding a block of words, in order, to an accumulator leaves in it (R206). -/
def ckFeed : Checksum → Word → List Word → Word
  | .uninterpreted which, acc, ws => Config.checksumBlock which acc ws
  | .crc32, acc, ws => ws.foldl crcFeed acc

/-- `CHECKSUM(buf[0], .., buf[255])`: a block fed from `CK_INIT` (R206). -/
def checksum (c : Checksum) (ws : List Word) : Word := ckFeed c (ckInit c) ws

end Sys2Proof.Machine
end

