-- ==== Sys2Proof/Machine/Flags.lean ====
section
/-! DEFINITION. The six conditions the operations branch on (`10_state.md` R22): computed in the step that uses them,
never stored. -/

namespace Sys2Proof.Machine

/-- `match`: `rx_byte = MAGIC`, on all 8 bits (R104). -/
def magicMatches (s : State) : Bool := s.rxByte == Config.magic

/-- `more`: `remaining > 0`, unsigned (R121). -/
def morePages (s : State) : Bool := decide (0 < s.remaining.toNat)

/-- `budget - 1` on a register of `BUDGET_W` bits (R9, R16). -/
def budgetLess (s : State) : Nat := if s.budget = 0 then 2 ^ s.cfg.val.budgetW - 1 else s.budget - 1

/-- `expired`: `budget - 1 = 0`, asked only when `done` is false (R125). -/
def budgetExpires (s : State) : Bool := budgetLess s == 0

/-- `equal`: `crc_local = csum_slot`, all 32 bits (R132). -/
def checksumsEqual (s : State) : Bool := s.crcLocal == s.csumSlot

/-- `last`: `widx + 1 = PAGE_WORDS` (R152). -/
def lastWord (s : State) : Bool := (s.widx + 1#9).toNat == Config.pageWords

end Sys2Proof.Machine
end

