-- ==== Sys2Proof/Machine/Ops.lean ====
section
/-! DEFINITION. The shared operations: storage by bytes and words, one operation per port command
(`44_interfaces.md`), and the entry of an event with its return (`60_exceptions.md` R238, R239). -/

namespace Sys2Proof.Machine

/-! ## Storage content -/

/-- The byte stored at an address; `none` where it is indeterminate (R43, R215). -/
def readByte : Memory → Nat → Option Byte
  | [], _ => none
  | (k, v) :: m, a => if k = a then some v else readByte m a

/-- Store a byte, keeping the addresses rising. -/
def writeByte : Memory → Nat → Byte → Memory
  | [], a, v => [(a, v)]
  | (k, w) :: m, a, v =>
    if a < k then (a, v) :: (k, w) :: m
    else if a = k then (a, v) :: m
    else (k, w) :: writeByte m a v

/-- Make `n` bytes from `a` on indeterminate (R213, R276). -/
def forget (m : Memory) (a n : Nat) : Memory := m.filter fun c => decide (c.1 < a ∨ a + n ≤ c.1)

/-- `MemRead(a, 4)`: the little-endian word at `a`, if it is a word and not indeterminate (R43). -/
def readWord (m : Memory) (a : Nat) : Option Word :=
  match readByte m a, readByte m (a + 1), readByte m (a + 2), readByte m (a + 3) with
  | some b0, some b1, some b2, some b3 => some (leWord b0 b1 b2 b3)
  | _, _, _, _ => none

/-- `MemWrite(a, 4, w)`: byte `k` of `w` at address `a + k` (R43). -/
def writeWord (m : Memory) (a : Nat) (w : Word) : Memory :=
  writeByte (writeByte (writeByte (writeByte m (a + 3) (byteOf w 3)) (a + 2) (byteOf w 2)) (a + 1) (byteOf w 1))
    a (byteOf w 0)

/-- `n` words from `a` on, all set to `w`. -/
def fillWords : Memory → Nat → Word → Nat → Memory
  | m, _, _, 0 => m
  | m, a, w, n + 1 => fillWords (writeWord m (a + 4 * n) w) a w n

/-- The effect of an erase: the 256 words of the page at `a` read as `w` (R211). Irreducible, so that no unifier unrolls
the 256 writes; `Laws/Memory.lean` says what it does. -/
@[irreducible] def erasePage (m : Memory) (a : Nat) (w : Word) : Memory := fillWords m a w Config.pageWords

/-! ## What a port transaction can do -/

/-- A transaction completes with a result, cannot complete now (R191: stuck, no state changed), or meets a model
fault, with the state as the fault leaves it (R29). -/
inductive Txn (α : Type) where
  | done (result : α) (s : State)
  | waits
  | faults (r : Fault) (s : State)

/-- The next operation: `st <- c` (R9). -/
def State.goto (s : State) (c : BitVec 5) : State := { s with st := c }

/-- `fault <Reason>` (R9, R29): the reason is recorded and nothing else moves. -/
def State.recordFault (s : State) (r : Fault) : State := { s with fault := some r }

/-- The step that issues a transaction at `s` and, when it has completed, does `k` with its result. A transaction that
cannot complete leaves the state as it is, to be tried again (R191, log 6). -/
def Txn.finish {α : Type} (t : Txn α) (s : State) (k : α → State → State) : Host.Outcome State Fault Refusal :=
  match t with
  | .done a s' => .next (k a s')
  | .waits => .next s
  | .faults r s' => .next (s'.recordFault r)

/-! ## The settling delay -/

/-- One iteration of a settling delay (R101, R172). -/
def settle (here next : BitVec 5) (s : State) : State :=
  if 0 < s.dly then { s with dly := s.dly - 1, st := here } else s.goto next

/-! ## Transport (R192 to R196) -/

/-- `TX.SEND(b)` (R192, R193). -/
def txSend (b : Byte) (s : State) : Txn Unit :=
  if !s.txEn then .faults .transportDisabled s
  else if !s.txReady then .waits
  else .done () { s with txLog := s.txLog ++ [b] }

/-- `RX.RECV() -> b` (R193, R194, R196). -/
def rxRecv (s : State) : Txn Byte :=
  if !s.rxEn then .faults .transportDisabled s
  else if s.sdArmed then .waits
  else match s.line with
    | [] => .waits
    | b :: rest => .done b { s with line := rest }

/-- `TR.DISABLE()` (R195). -/
def trDisable (s : State) : State := { s with rxEn := false, txEn := false }

/-! ## Streaming driver (R201, R202) -/

/-- `SD.ARM(dest, len)` (R201). -/
def sdArm (dest : Dest) (len : Nat) (s : State) : State :=
  { s with sdArmed := true, sdDest := dest, sdLen := len, sdCnt := 0, sdDone := false }

/-- `SD.DONE() -> bit`: the flag, without side effect (R202). -/
def sdDone (s : State) : Bool := s.sdDone

/-- `SD.ARM` as the operations issue it: the budget is loaded by every re-arm (R16, C3). -/
def armAndLoad (dest : Dest) (s : State) : State :=
  { sdArm dest dest.size s with budget := s.cfg.val.timeoutInit }

/-! ## Checksum engine (R205, R206) -/

/-- `CK.RESET()` (R205). -/
def ckReset (s : State) : State := { s with ckAcc := ckInit s.cfg.val.checksum }

/-- The accumulator after `CK.BLOCK(page_buf)`, which is also its result (R206). -/
def ckResult (s : State) : Word := ckFeed s.cfg.val.checksum s.ckAcc (bufferWords s)

/-- `CK.BLOCK(page_buf)`, its result going to `crc_local` (R190, R206). -/
def ckBlock (s : State) : State := { s with ckAcc := ckResult s, crcLocal := ckResult s }

/-! ## Storage commands (R209 to R215) -/

/-- `NV.UNLOCK()` (R209). -/
def nvUnlock (s : State) : State := { s with nvLocked := false }

/-- `NV.LOCK()` (R210). -/
def nvLock (s : State) : State := { s with nvLocked := true }

/-- `NV.SET_TIMING(v)` (R214). -/
def nvSetTiming (v : Word) (s : State) : State := { s with nvTiming := some v }

/-- `NV.ERASE_PAGE(a)` (R48, R210, R211, R212; the order of the checks is log 15). -/
def nvErasePage (a : Word) (s : State) : Txn Unit :=
  if a.toNat % 1024 ≠ 0 then .faults .parameterConstraint s
  else if s.nvLocked then .faults .storageLocked s
  else if s.cfg.val.flashEnd.toNat < a.toNat + 1024 then .faults .storageOutOfRange s
  else .done () { s with nvMem := erasePage s.nvMem a.toNat s.cfg.val.erased }

/-- `NV.PROGRAM_WORD(a, d)` (R48, R210, R212, R213). A word that does not read as erased becomes indeterminate. -/
def nvProgramWord (a d : Word) (s : State) : Txn Unit :=
  if a.toNat % 4 ≠ 0 then .faults .parameterConstraint s
  else if s.nvLocked then .faults .storageLocked s
  else if s.cfg.val.flashEnd.toNat < a.toNat + 4 then .faults .storageOutOfRange s
  else if readWord s.nvMem a.toNat ≠ some s.cfg.val.erased then
    .faults .programNotErased { s with nvMem := forget s.nvMem a.toNat 4 }
  else .done () { s with nvMem := writeWord s.nvMem a.toNat d }

/-- `NV.READ32(a) -> u32` (R48, R212, R215): an indeterminate word is a draw, a new one at every read. -/
def nvRead32 (a : Word) (s : State) : Txn Word :=
  if a.toNat % 4 ≠ 0 then .faults .parameterConstraint s
  else if s.cfg.val.flashEnd.toNat < a.toNat + 4 then .faults .storageOutOfRange s
  else match readWord s.nvMem a.toNat with
    | some w => .done w s
    | none => .done (Config.freeWord s.draws) { s with draws := s.draws + 1 }

/-! ## System port (R217) -/

/-- `SYS.SET_VTBR(a)` (R217). -/
def sysSetVtbr (a : Word) (s : State) : State := { s with vtbr := a }

/-- `SYS.JUMP(e)`: the hand-off is recorded, and the sequencer's next and last state is `S_HANDOFF` (R217). -/
def sysJump (e : Word) (s : State) : State := { s with handoff := some e, st := Code.handoff }

/-! ## Events: what stands for exceptions (R230 to R239) -/

/-- The events the engine raises. `NvWriteFailure` is never raised (R234) and has no constructor. -/
inductive EngineEvent where
  | authMismatch
  | receiveTimeout
  | checksumMismatch
  deriving DecidableEq, Repr

/-- Entry of an event (R238): nothing is saved, no mode changes, `st` goes to the first operation of the recovery. -/
def raiseEvent (e : EngineEvent) (s : State) : State :=
  match e with
  | .authMismatch => s.goto Code.doneTx
  | .receiveTimeout => s.goto Code.toRearm
  | .checksumMismatch => s.goto Code.errTx

/-- Return from an event (R239): the last operation of the recovery sets `st` back into the main path. A mismatched
magic has no way back: Finalize follows (R231). -/
def resumeFrom (e : EngineEvent) (s : State) : State :=
  match e with
  | .authMismatch => s
  | .receiveTimeout => s.goto Code.awaitPage
  | .checksumMismatch => s.goto Code.loopTest

end Sys2Proof.Machine
end

