-- ==== Sys2Proof/Machine/Agents.lean ====
section
/-! DEFINITION. The steps that are not the sequencer's: the streaming driver, the host, the drop step, the transport's
acceptance (`44_interfaces.md` R192, R197, R203, R218), and the reset event (`70_reset_and_hazards.md` R261, R276). -/

namespace Sys2Proof.Machine

/-- The driver takes byte `b`, leaving `rest` on the line (R203). -/
def driverTake (b : Byte) (rest : List Byte) (s : State) : State :=
  let t := storeStreamByte s.sdDest s.sdCnt b { s with line := rest }
  if s.sdCnt + 1 = s.sdLen then { t with sdCnt := s.sdCnt + 1, sdDone := true, sdArmed := false }
  else { t with sdCnt := s.sdCnt + 1 }

/-- The streaming driver's turn: one byte if its step is enabled (R203, R204), otherwise nothing. An index outside the
destination, which R200 excludes, names no byte (log 16). -/
def driverTurn (s : State) : Host.Outcome State Fault Refusal :=
  if s.sdArmed && s.rxEn then
    match s.line with
    | [] => .next s
    | b :: rest =>
      if s.sdCnt < s.sdDest.size then .next (driverTake b rest s)
      else .refused (.driverOutsideDestination s.sdCnt)
  else .next s

/-- The host appends bytes to the line, always enabled (R218). -/
def hostAppend (bs : List Byte) (s : State) : State := { s with line := s.line ++ bs }

/-- No consumer wants the head of the line (R197; with the receiver off, R195). -/
def unsolicited (s : State) : Bool :=
  !s.rxEn || s.sdDone || (!s.sdArmed && s.st != Code.recvMagic && s.st != Code.recvCount)

/-- The environment's drop turn: an unsolicited head of the line is lost (R197), otherwise nothing happens. -/
def dropTurn (s : State) : State := if unsolicited s then { s with line := s.line.tail } else s

/-- The transport can, or cannot, accept a byte from now on (R192). -/
def transportTurn (ready : Bool) (s : State) : State := { s with txReady := ready }

/-- `st` is in a commit (R276). -/
def committing (s : State) : Bool := s.st == Code.erase || s.st == Code.program || s.st == Code.advance

/-- What storage holds after a reset: all it held, but for the page of a commit that the reset cuts, which is wholly
indeterminate (R276, U2, log 13). -/
def memoryAfterReset (s : State) : Memory :=
  if committing s then forget s.nvMem s.cursor.toNat 1024 else s.nvMem

/-- The reset event (R261): R30's value everywhere, storage kept as `memoryAfterReset` says. The model's own
bookkeeping of schedule and draws goes on. -/
def resetEvent (s : State) : State :=
  { State.initial s.cfg with
    nvMem := memoryAfterReset s, script := s.script, turnCount := s.turnCount, draws := s.draws }

/-- Power-on with a valuation of the parameters: one that breaks a constraint is `fault ParameterConstraint` (V8,
R241). -/
def powerOn (p : ParamValues) : Host.Outcome State Fault Refusal :=
  if h : p.Ok then .next (State.initial ⟨p, h⟩) else .fault .parameterConstraint

end Sys2Proof.Machine
end

