-- ==== Sys2Proof/Machine/FinalizeBoot.lean ====
section
/-! DEFINITION. The finalize and boot hand-off operations (`43_finalize_boot.md` R171 to R177). -/

namespace Sys2Proof.Machine

/-- `S_DONE_TX` (R171). -/
def execSDoneTx (s : State) : Host.Outcome State Fault Refusal :=
  (txSend Config.symDone s).finish s fun _ t => { t with dly := t.cfg.val.settleF, st := Code.settleF }

/-- `S_SETTLE_F` (R172). -/
def execSSettleF (s : State) : Host.Outcome State Fault Refusal :=
  .next (settle Code.settleF Code.disable s)

/-- `S_DISABLE` (R173). -/
def execSDisable (s : State) : Host.Outcome State Fault Refusal :=
  .next ((trDisable s).goto Code.bootRead)

/-- `S_BOOT_READ` (R174). -/
def execSBootRead (s : State) : Host.Outcome State Fault Refusal :=
  (nvRead32 (entryVectorAddr s) s).finish s fun w t => { t with entry := w, st := Code.bootVtbr }

/-- `S_BOOT_VTBR` (R175). -/
def execSBootVtbr (s : State) : Host.Outcome State Fault Refusal :=
  .next ((sysSetVtbr s.cfg.val.appBase s).goto Code.bootJump)

/-- `S_BOOT_JUMP` (R176). -/
def execSBootJump (s : State) : Host.Outcome State Fault Refusal :=
  .next ((sysJump s.entry s).goto Code.handoff)

/-- `S_HANDOFF` (R177): terminal. The sequencer has no step, so its turn changes nothing (log 6). -/
def execSHandoff (s : State) : Host.Outcome State Fault Refusal := .next s

end Sys2Proof.Machine
end

