-- ==== Sys2Proof/Machine/FlashCommit.lean ====
section
/-! DEFINITION. The flash-commit operations (`42_flash_commit.md` R151 to R154). -/

namespace Sys2Proof.Machine

/-- `S_ERASE` (R151, R156). -/
def execSErase (s : State) : Host.Outcome State Fault Refusal :=
  (nvErasePage s.cursor s).finish s fun _ t => { t with widx := 0#9, st := Code.program }

/-- `S_PROGRAM` (R152): one word. -/
def execSProgram (s : State) : Host.Outcome State Fault Refusal :=
  (nvProgramWord (programAddr s) (programData s) s).finish s fun _ t =>
    { t with
      widx := s.widx + 1#9, draws := programDraws s, st := if lastWord s then Code.advance else Code.program }

/-- `S_ADVANCE` (R153). -/
def execSAdvance (s : State) : Host.Outcome State Fault Refusal :=
  .next { s with cursor := s.cursor + 1024#32, remaining := s.remaining - 1#8, st := Code.loopTest }

/-- `S_LOCK` (R154). -/
def execSLock (s : State) : Host.Outcome State Fault Refusal :=
  .next ((nvLock s).goto Code.doneTx)

end Sys2Proof.Machine
end

