-- ==== Sys2Proof/Machine/Handshake.lean ====
section
/-! DEFINITION. The handshake operations, Announce and Authenticate (`40_handshake.md` R101 to R108). -/

namespace Sys2Proof.Machine

/-- `S_SETTLE_A` (R101). -/
def execSSettleA (s : State) : Host.Outcome State Fault Refusal :=
  .next (settle Code.settleA Code.announce s)

/-- `S_ANNOUNCE` (R102). -/
def execSAnnounce (s : State) : Host.Outcome State Fault Refusal :=
  (txSend Config.symReady s).finish s fun _ t => t.goto Code.recvMagic

/-- `S_RECV_MAGIC` (R103): blocking, no timeout. -/
def execSRecvMagic (s : State) : Host.Outcome State Fault Refusal :=
  (rxRecv s).finish s fun b t => { t with rxByte := b, st := Code.auth }

/-- `S_AUTH` (R104, R231). -/
def execSAuth (s : State) : Host.Outcome State Fault Refusal :=
  .next (if magicMatches s then s.goto Code.ack else raiseEvent .authMismatch s)

/-- `S_ACK` (R105). -/
def execSAck (s : State) : Host.Outcome State Fault Refusal :=
  (txSend Config.symAck s).finish s fun _ t => t.goto Code.recvCount

/-- `S_RECV_COUNT` (R106): the session is created. -/
def execSRecvCount (s : State) : Host.Outcome State Fault Refusal :=
  (rxRecv s).finish s fun b t =>
    { t with rxByte := b, remaining := b, cursor := t.cfg.val.appBase, st := Code.unlock }

/-- `S_UNLOCK` (R107). -/
def execSUnlock (s : State) : Host.Outcome State Fault Refusal :=
  .next ((nvUnlock s).goto Code.setTiming)

/-- `S_SET_TIMING` (R108). -/
def execSSetTiming (s : State) : Host.Outcome State Fault Refusal :=
  .next ((nvSetTiming s.cfg.val.nvmTiming s).goto Code.loopTest)

end Sys2Proof.Machine
end

