-- ==== Sys2Proof/Machine/PageStream.lean ====
section
/-! DEFINITION. The page-streaming operations, PageLoop, AwaitPage and Verify (`41_page_stream.md` R121 to R133). -/

namespace Sys2Proof.Machine

/-- `S_LOOP_TEST` (R121). -/
def execSLoopTest (s : State) : Host.Outcome State Fault Refusal :=
  .next (s.goto (if morePages s then Code.crcReset else Code.lock))

/-- `S_CRC_RESET` (R122). -/
def execSCrcReset (s : State) : Host.Outcome State Fault Refusal :=
  .next ((ckReset s).goto Code.armPage)

/-- `S_ARM_PAGE` (R123). -/
def execSArmPage (s : State) : Host.Outcome State Fault Refusal :=
  .next ((armAndLoad .pageBuf s).goto Code.reqPage)

/-- `S_REQ_PAGE` (R124). -/
def execSReqPage (s : State) : Host.Outcome State Fault Refusal :=
  (txSend Config.symPage s).finish s fun _ t => t.goto Code.awaitPage

/-- `S_AWAIT_PAGE` (R125, R232): the flag is sampled first, so completion wins (R237). -/
def execSAwaitPage (s : State) : Host.Outcome State Fault Refusal :=
  .next
    (if sdDone s then s.goto Code.crcCalc
    else
      let t := { s with budget := budgetLess s }
      if budgetExpires s then raiseEvent .receiveTimeout t else t.goto Code.awaitPage)

/-- `S_TO_REARM` (R126). -/
def execSToRearm (s : State) : Host.Outcome State Fault Refusal :=
  .next ((armAndLoad .pageBuf s).goto Code.toTx)

/-- `S_TO_TX` (R127): the end of the timeout's recovery (R239). -/
def execSToTx (s : State) : Host.Outcome State Fault Refusal :=
  (txSend Config.symTimeout s).finish s fun _ t => resumeFrom .receiveTimeout t

/-- `S_CRC_CALC` (R128). -/
def execSCrcCalc (s : State) : Host.Outcome State Fault Refusal :=
  .next ((ckBlock s).goto Code.armCsum)

/-- `S_ARM_CSUM` (R129). -/
def execSArmCsum (s : State) : Host.Outcome State Fault Refusal :=
  .next ((armAndLoad .csumSlot s).goto Code.reqCsum)

/-- `S_REQ_CSUM` (R130). -/
def execSReqCsum (s : State) : Host.Outcome State Fault Refusal :=
  (txSend Config.symCsum s).finish s fun _ t => t.goto Code.awaitCsum

/-- `S_AWAIT_CSUM` (R131): no timeout. -/
def execSAwaitCsum (s : State) : Host.Outcome State Fault Refusal :=
  .next (s.goto (if sdDone s then Code.verify else Code.awaitCsum))

/-- `S_VERIFY` (R132, R233): the commit gate. -/
def execSVerify (s : State) : Host.Outcome State Fault Refusal :=
  .next (if checksumsEqual s then s.goto Code.erase else raiseEvent .checksumMismatch s)

/-- `S_ERR_TX` (R133): the end of the mismatch's recovery (R239). -/
def execSErrTx (s : State) : Host.Outcome State Fault Refusal :=
  (txSend Config.symError s).finish s fun _ t => resumeFrom .checksumMismatch t

end Sys2Proof.Machine
end

