-- ==== Sys2Proof/Machine/Ports.lean ====
section
/-! DEFINITION. The port commands as transactions of a session (`30_encoding.md` R79, R80; `44_interfaces.md`). Each is
the same shared operation that the sequencer's operations issue; a result goes where R190 says. No run from reset
presents one by itself (log 8). -/

namespace Sys2Proof.Machine

/-- `TX.SEND(b)` (R192). -/
def execTxSend (b : Byte) (s : State) : Host.Outcome State Fault Refusal :=
  (txSend b s).finish s fun _ t => t

/-- `RX.RECV() -> b` (R194); the result goes to `rx_byte` (R190). -/
def execRxRecv (s : State) : Host.Outcome State Fault Refusal :=
  (rxRecv s).finish s fun b t => { t with rxByte := b }

/-- `TR.DISABLE()` (R195). -/
def execTrDisable (s : State) : Host.Outcome State Fault Refusal := .next (trDisable s)

/-- `SD.ARM(dest, len)` (R201). The budget is the operations' to load, not the driver's. -/
def execSdArm (dest : Dest) (len : BitVec 11) (s : State) : Host.Outcome State Fault Refusal :=
  .next (sdArm dest len.toNat s)

/-- `SD.DONE() -> bit` (R202): no side effect, and no register takes the bit (R22, R190). -/
def execSdDone (s : State) : Host.Outcome State Fault Refusal := .next s

/-- `CK.RESET()` (R205). -/
def execCkReset (s : State) : Host.Outcome State Fault Refusal := .next (ckReset s)

/-- `CK.BLOCK(page_buf)` (R206); the result goes to `crc_local` (R190). -/
def execCkBlock (s : State) : Host.Outcome State Fault Refusal := .next (ckBlock s)

/-- `NV.UNLOCK()` (R209). -/
def execNvUnlock (s : State) : Host.Outcome State Fault Refusal := .next (nvUnlock s)

/-- `NV.SET_TIMING(v)` (R214). -/
def execNvSetTiming (v : Word) (s : State) : Host.Outcome State Fault Refusal := .next (nvSetTiming v s)

/-- `NV.ERASE_PAGE(a)` (R211). -/
def execNvErasePage (addr : Word) (s : State) : Host.Outcome State Fault Refusal :=
  (nvErasePage addr s).finish s fun _ t => t

/-- `NV.PROGRAM_WORD(a, d)` (R213). -/
def execNvProgramWord (addr data : Word) (s : State) : Host.Outcome State Fault Refusal :=
  (nvProgramWord addr data s).finish s fun _ t => t

/-- `NV.LOCK()` (R210). -/
def execNvLock (s : State) : Host.Outcome State Fault Refusal := .next (nvLock s)

/-- `NV.READ32(a) -> u32` (R215); the result goes to `entry` (R190). -/
def execNvRead32 (addr : Word) (s : State) : Host.Outcome State Fault Refusal :=
  (nvRead32 addr s).finish s fun w t => { t with entry := w }

/-- `SYS.SET_VTBR(a)` (R217). -/
def execSysSetVtbr (addr : Word) (s : State) : Host.Outcome State Fault Refusal := .next (sysSetVtbr addr s)

/-- `SYS.JUMP(e)` (R217). -/
def execSysJump (entry : Word) (s : State) : Host.Outcome State Fault Refusal := .next (sysJump entry s)

end Sys2Proof.Machine
end

