-- ==== Sys2Proof/Machine/Wire.lean ====
section
/-! DEFINITION. The wire's two spaces as events of a session (`30_encoding.md` R71, R72, R80): `D>H 'c'`, the engine
sends a symbol, and `H>D`, the host puts a frame on the line. What a frame means is decided by the consumer that takes
its bytes (R72): `RX.RECV` or the streaming driver. -/

namespace Sys2Proof.Machine

/-- `D>H 'c'`: a `TX.SEND` of the symbol completes (R80, R192). -/
def sendSymbol (c : Byte) (s : State) : Host.Outcome State Fault Refusal := (txSend c s).finish s fun _ t => t

/-- `SYM_READY` (R71, R102). -/
def execSymReady (s : State) : Host.Outcome State Fault Refusal := sendSymbol Config.symReady s

/-- `SYM_ACK` (R71, R105). -/
def execSymAck (s : State) : Host.Outcome State Fault Refusal := sendSymbol Config.symAck s

/-- `SYM_PAGE` (R71, R124). -/
def execSymPage (s : State) : Host.Outcome State Fault Refusal := sendSymbol Config.symPage s

/-- `SYM_TIMEOUT` (R71, R127). -/
def execSymTimeout (s : State) : Host.Outcome State Fault Refusal := sendSymbol Config.symTimeout s

/-- `SYM_CSUM` (R71, R130). -/
def execSymCsum (s : State) : Host.Outcome State Fault Refusal := sendSymbol Config.symCsum s

/-- `SYM_ERROR` (R71, R133). -/
def execSymError (s : State) : Host.Outcome State Fault Refusal := sendSymbol Config.symError s

/-- `SYM_DONE` (R71, R171). -/
def execSymDone (s : State) : Host.Outcome State Fault Refusal := sendSymbol Config.symDone s

/-- The `MAGIC` frame: one byte on the line (R72). -/
def execMagicFrame (m : Byte) (s : State) : Host.Outcome State Fault Refusal := .next (hostAppend [m] s)

/-- The `COUNT` frame: one byte on the line (R72). -/
def execCountFrame (n : Byte) (s : State) : Host.Outcome State Fault Refusal := .next (hostAppend [n] s)

/-- The `PAGE` frame: its bytes on the line, lowest address first (R72). -/
def execPageFrame (b : List Byte) (s : State) : Host.Outcome State Fault Refusal := .next (hostAppend b s)

/-- The `CSUM` frame: four bytes on the line, least significant first (R72). -/
def execCsumFrame (c : Word) (s : State) : Host.Outcome State Fault Refusal := .next (hostAppend (leBytes c) s)

end Sys2Proof.Machine
end

