-- ==== Sys2Proof/Machine/Dispatch.lean ====
section
/-! DEFINITION. The dispatch of instructions to their meanings, one arm per row of the opcode table. -/

namespace Sys2Proof.Machine

def exec (i : Instr) (s : State) : Host.Outcome State Fault Refusal :=
  match i with
  | .symReady => Sys2Proof.Machine.execSymReady s
  | .symAck => Sys2Proof.Machine.execSymAck s
  | .symPage => Sys2Proof.Machine.execSymPage s
  | .symTimeout => Sys2Proof.Machine.execSymTimeout s
  | .symCsum => Sys2Proof.Machine.execSymCsum s
  | .symError => Sys2Proof.Machine.execSymError s
  | .symDone => Sys2Proof.Machine.execSymDone s
  | .magicFrame m => Sys2Proof.Machine.execMagicFrame m s
  | .countFrame n => Sys2Proof.Machine.execCountFrame n s
  | .pageFrame b => Sys2Proof.Machine.execPageFrame b s
  | .csumFrame c => Sys2Proof.Machine.execCsumFrame c s
  | .sSettleA => Sys2Proof.Machine.execSSettleA s
  | .sAnnounce => Sys2Proof.Machine.execSAnnounce s
  | .sRecvMagic => Sys2Proof.Machine.execSRecvMagic s
  | .sAuth => Sys2Proof.Machine.execSAuth s
  | .sAck => Sys2Proof.Machine.execSAck s
  | .sRecvCount => Sys2Proof.Machine.execSRecvCount s
  | .sUnlock => Sys2Proof.Machine.execSUnlock s
  | .sSetTiming => Sys2Proof.Machine.execSSetTiming s
  | .sLoopTest => Sys2Proof.Machine.execSLoopTest s
  | .sCrcReset => Sys2Proof.Machine.execSCrcReset s
  | .sArmPage => Sys2Proof.Machine.execSArmPage s
  | .sReqPage => Sys2Proof.Machine.execSReqPage s
  | .sAwaitPage => Sys2Proof.Machine.execSAwaitPage s
  | .sToRearm => Sys2Proof.Machine.execSToRearm s
  | .sToTx => Sys2Proof.Machine.execSToTx s
  | .sCrcCalc => Sys2Proof.Machine.execSCrcCalc s
  | .sArmCsum => Sys2Proof.Machine.execSArmCsum s
  | .sReqCsum => Sys2Proof.Machine.execSReqCsum s
  | .sAwaitCsum => Sys2Proof.Machine.execSAwaitCsum s
  | .sVerify => Sys2Proof.Machine.execSVerify s
  | .sErrTx => Sys2Proof.Machine.execSErrTx s
  | .sErase => Sys2Proof.Machine.execSErase s
  | .sProgram => Sys2Proof.Machine.execSProgram s
  | .sAdvance => Sys2Proof.Machine.execSAdvance s
  | .sLock => Sys2Proof.Machine.execSLock s
  | .sDoneTx => Sys2Proof.Machine.execSDoneTx s
  | .sSettleF => Sys2Proof.Machine.execSSettleF s
  | .sDisable => Sys2Proof.Machine.execSDisable s
  | .sBootRead => Sys2Proof.Machine.execSBootRead s
  | .sBootVtbr => Sys2Proof.Machine.execSBootVtbr s
  | .sBootJump => Sys2Proof.Machine.execSBootJump s
  | .sHandoff => Sys2Proof.Machine.execSHandoff s
  | .txSend b => Sys2Proof.Machine.execTxSend b s
  | .rxRecv => Sys2Proof.Machine.execRxRecv s
  | .trDisable => Sys2Proof.Machine.execTrDisable s
  | .sdArm dest len => Sys2Proof.Machine.execSdArm dest len s
  | .sdDone => Sys2Proof.Machine.execSdDone s
  | .ckReset => Sys2Proof.Machine.execCkReset s
  | .ckBlock => Sys2Proof.Machine.execCkBlock s
  | .nvUnlock => Sys2Proof.Machine.execNvUnlock s
  | .nvSetTiming v => Sys2Proof.Machine.execNvSetTiming v s
  | .nvErasePage addr => Sys2Proof.Machine.execNvErasePage addr s
  | .nvProgramWord addr data => Sys2Proof.Machine.execNvProgramWord addr data s
  | .nvLock => Sys2Proof.Machine.execNvLock s
  | .nvRead32 addr => Sys2Proof.Machine.execNvRead32 addr s
  | .sysSetVtbr addr => Sys2Proof.Machine.execSysSetVtbr addr s
  | .sysJump entry => Sys2Proof.Machine.execSysJump entry s

end Sys2Proof.Machine
end

