-- ==== Sys2Proof/Machine/Fetch.lean ====
section
/-! DEFINITION. How a step finds what it runs: the operation `st` names (`10_state.md` R11, `00_scope.md` R3), the agent
whose turn it is (`60_exceptions.md` R245), or a transaction of a session (`30_encoding.md` R80). -/

namespace Sys2Proof.Machine

/-- The operation the sequencer performs next (R11): the engine's fetch. -/
def fetch (s : State) : Instr := decodeState s.st

/-- An event of a faulted machine ends in the fault: the model gives nothing after it (R29, R241). -/
def unlessFaulted (s : State) (o : Host.Outcome State Fault Refusal) : Host.Outcome State Fault Refusal :=
  match s.fault with
  | some r => .fault r
  | none => o

/-- A turn. Only the reset event leaves a faulted state (R30). -/
def runTurn : Turn → State → Host.Outcome State Fault Refusal
  | .sequencer, s => unlessFaulted s (exec (fetch s) s)
  | .driver, s => unlessFaulted s (driverTurn s)
  | .host b, s => unlessFaulted s (.next (hostAppend [b] s))
  | .drop, s => unlessFaulted s (.next (dropTurn s))
  | .transport ready, s => unlessFaulted s (.next (transportTurn ready s))
  | .reset, s => .next (resetEvent s)

/-- An event of the script: a turn, or a transaction, which is decoded and performed. DESIGN CHOICE (log 8): R80 gives no
session event of the operation space, and a transaction of that space performs its operation whatever code `st` holds,
while a sequencer turn always performs the operation `st` names (R11). -/
def runEvent : Event → State → Host.Outcome State Fault Refusal
  | .turn t, s => runTurn t s
  | .transaction space bytes, s =>
    unlessFaulted s
      (match decode space bytes with
      | .ok i => exec i s
      | .error e => .refused (.undecodable e))

/-- The next event: the head of the script, or, once the script is used up, a free turn (R31, log 1). -/
def nextEvent (s : State) : Event × State :=
  match s.script with
  | e :: rest => (e, { s with script := rest })
  | [] => (.turn (Config.freeTurn s.turnCount), { s with turnCount := s.turnCount + 1 })

end Sys2Proof.Machine
end

