-- ==== Sys2Proof/Machine/Step.lean ====
section
/-! DEFINITION. One step of the machine: one atomic step of one agent (`00_scope.md` R8, `20_memory.md` R53). -/

namespace Sys2Proof.Machine

/-- One step: the next event happens. -/
def step (s : State) : Host.Outcome State Fault Refusal := runEvent (nextEvent s).1 (nextEvent s).2

/-- `s` with an instruction where the next step finds it: an operation's code in `st` with the sequencer's turn first
in the script; any other instruction's bytes as the first event of the script (log 1, log 8, log 9). -/
def State.withFetchWord (s : State) (nbits w : Nat) : State :=
  match tableSpace nbits w with
  | .state => { s with st := BitVec.ofNat 5 w, script := .turn .sequencer :: s.script }
  | space => { s with script := .transaction space (tableBytes nbits w) :: s.script }

end Sys2Proof.Machine
end

