-- ==== Sys2Proof/Safety.lean ====
section
/-! DEFINITION. The terms claims are stated in: when a run is over or stuck, and the invariants the spec's prose gives
of the whole machine (`10_state.md` R32, `20_memory.md` R52, R57, `30_encoding.md` R81, `42_flash_commit.md` R155,
`44_interfaces.md` R193, R200). -/

namespace Sys2Proof.Machine

/-! ## Ends of runs -/

/-- A run is over exactly when `st = S_HANDOFF` (R177); a faulted state is never final (R29). -/
def State.over (s : State) : Prop := s.st = Code.handoff ∧ s.fault = none

/-- The blocking transaction of an instruction cannot complete now (R191, R192, R194). -/
def blocked (i : Instr) (s : State) : Bool :=
  match i with
  | .sAnnounce | .sAck | .sReqPage | .sToTx | .sReqCsum | .sErrTx | .sDoneTx
  | .txSend _ | .symReady | .symAck | .symPage | .symTimeout | .symCsum | .symError | .symDone =>
    s.txEn && !s.txReady
  | .sRecvMagic | .sRecvCount | .rxRecv => s.rxEn && (s.sdArmed || s.line.isEmpty)
  | _ => false

/-- The sequencer is stuck: its operation is blocked (R9, R177, R273). Another agent may lift it. -/
def State.stuck (s : State) : Prop := blocked (fetch s) s = true

/-! ## What the sequencer's table says (R77) -/

/-- The states an operation can go to when it completes: the table's `next` (R77). -/
def successors (c : BitVec 5) : List (BitVec 5) :=
  match decodeState c with
  | .sSettleA => [Code.settleA, Code.announce]
  | .sAnnounce => [Code.recvMagic]
  | .sRecvMagic => [Code.auth]
  | .sAuth => [Code.ack, Code.doneTx]
  | .sAck => [Code.recvCount]
  | .sRecvCount => [Code.unlock]
  | .sUnlock => [Code.setTiming]
  | .sSetTiming => [Code.loopTest]
  | .sLoopTest => [Code.crcReset, Code.lock]
  | .sCrcReset => [Code.armPage]
  | .sArmPage => [Code.reqPage]
  | .sReqPage => [Code.awaitPage]
  | .sAwaitPage => [Code.crcCalc, Code.awaitPage, Code.toRearm]
  | .sToRearm => [Code.toTx]
  | .sToTx => [Code.awaitPage]
  | .sCrcCalc => [Code.armCsum]
  | .sArmCsum => [Code.reqCsum]
  | .sReqCsum => [Code.awaitCsum]
  | .sAwaitCsum => [Code.verify, Code.awaitCsum]
  | .sVerify => [Code.erase, Code.errTx]
  | .sErrTx => [Code.loopTest]
  | .sErase => [Code.program]
  | .sProgram => [Code.program, Code.advance]
  | .sAdvance => [Code.loopTest]
  | .sLock => [Code.doneTx]
  | .sDoneTx => [Code.settleF]
  | .sSettleF => [Code.settleF, Code.disable]
  | .sDisable => [Code.bootRead]
  | .sBootRead => [Code.bootVtbr]
  | .sBootVtbr => [Code.bootJump]
  | .sBootJump => [Code.handoff]
  | _ => []

/-! ## Invariants -/

/-- `st` lies between two codes, ends included. -/
def State.within (s : State) (a b : Nat) : Prop := a ≤ s.st.toNat ∧ s.st.toNat ≤ b

/-- The script lists turns of agents only: every use of a port is the engine's (R191, R267). True of every state that
a run from reset reaches, since the script starts empty and no step adds to it. -/
def NoTransactions (s : State) : Prop := ∀ e ∈ s.script, ∃ t, e = Event.turn t

/-- Storage content is in canonical form and lies below `FLASH_END` (R27). -/
def MemoryOk (s : State) : Prop := s.nvMem.wf ∧ ∀ c ∈ s.nvMem, c.1 < s.cfg.val.flashEnd.toNat

/-- The invariants of the driver state (R200). -/
def DriverOk (s : State) : Prop :=
  (s.sdArmed = true → s.sdCnt < s.sdLen ∧ s.sdDone = false) ∧
  (s.sdDone = true → s.sdArmed = false ∧ s.sdCnt = s.sdLen) ∧
  (s.sdLen = match s.sdDest with | .pageBuf => 1024 | .csumSlot => 4)

/-- What the place in the protocol fixes: storage is unlocked exactly from `S_SET_TIMING` to `S_LOCK` (R57), the
transport is enabled up to and with `S_DISABLE` (R193), the access timing is set before the first commit (R150), and the
hand-off record is made at the end only (R28, R175, R176). -/
def PhaseOk (s : State) : Prop :=
  (s.nvLocked = false ↔ s.within 7 24) ∧
  (s.rxEn = true ↔ s.within 0 27) ∧
  (s.txEn = true ↔ s.within 0 27) ∧
  (s.within 8 24 → s.nvTiming = some s.cfg.val.nvmTiming) ∧
  (s.within 0 7 → s.nvTiming = none) ∧
  (s.within 0 30 → s.handoff = none) ∧
  (s.within 30 31 → s.vtbr = s.cfg.val.appBase) ∧
  (s.within 31 31 → s.handoff = some s.entry)

/-- The session registers (R32): with `count` the last received byte and `commits` what `remaining` is short of it,
`cursor = APP_BASE + 1024 * commits`, from the step after `S_RECV_COUNT` on, as long as the session exists; after the
loop, the access timing being set tells that it existed (R104: without authentication nothing of it does). -/
def SessionOk (s : State) : Prop :=
  ((s.within 6 24 ∨ (s.within 25 31 ∧ s.nvTiming ≠ none)) →
    s.remaining.toNat ≤ s.rxByte.toNat ∧
    s.cursor.toNat = s.cfg.val.appBase.toNat + 1024 * (s.rxByte.toNat - s.remaining.toNat)) ∧
  (s.within 9 23 → 0 < s.remaining.toNat) ∧
  (s.within 24 24 ∨ (s.within 25 31 ∧ s.nvTiming ≠ none) → s.remaining.toNat = 0)

/-- The counters (R12, R16): the delay is no larger than the longer of the two, the budget is in `0 .. TIMEOUT_INIT`,
registers of `BUDGET_W` bits hold both, and from the page request to the commit the budget is 0 only between
`S_AWAIT_PAGE` and `S_TO_REARM`. -/
def CountersOk (s : State) : Prop :=
  s.dly ≤ max s.cfg.val.settleA s.cfg.val.settleF ∧
  s.budget ≤ s.cfg.val.timeoutInit ∧
  s.dly < 2 ^ s.cfg.val.budgetW ∧
  s.budget < 2 ^ s.cfg.val.budgetW ∧
  (s.within 11 23 → (s.budget = 0 ↔ s.st = Code.toRearm))

/-- Which transfer the place in the protocol allows (R50, R52, R155, R265): none before the first arm; the page until it
is complete; the complete page while it is summed; the checksum until it is complete; none from then to the next arm. -/
def TransferOk (s : State) : Prop :=
  (s.within 0 10 → s.sdArmed = false) ∧
  (s.within 11 14 → s.sdDest = .pageBuf ∧ (s.sdArmed = true ∨ s.sdDone = true)) ∧
  (s.within 15 16 → s.sdDest = .pageBuf ∧ s.sdDone = true) ∧
  (s.within 17 18 → s.sdDest = .csumSlot ∧ (s.sdArmed = true ∨ s.sdDone = true)) ∧
  (s.within 19 31 → s.sdArmed = false)

/-- The gate (R122, R128, R132): the accumulator is reset when the page is summed, the local checksum is that of the
buffer as it stands from `S_ARM_CSUM` to the end of the commit, and a commit goes on only with the host's checksum equal
to it. -/
def GateOk (s : State) : Prop :=
  (s.within 10 15 → s.ckAcc = ckInit s.cfg.val.checksum) ∧
  (s.within 16 23 → s.crcLocal = checksum s.cfg.val.checksum (bufferWords s)) ∧
  (s.within 21 23 → s.crcLocal = s.csumSlot)

/-- A commit in progress (R152, R155): below `widx` the page holds the buffer's words, from `widx` on it is erased; when
the last word is programmed the page's content equals the buffer. -/
def CommitOk (s : State) : Prop :=
  (s.within 22 22 → s.widx.toNat < 256 ∧ s.cursor.toNat + 1024 ≤ s.cfg.val.flashEnd.toNat) ∧
  (s.within 23 23 → s.widx.toNat = 256) ∧
  (s.within 22 23 →
    (∀ i : Fin 256, i.val < s.widx.toNat →
      readWord s.nvMem (s.cursor.toNat + 4 * i.val) = some s.pageBuf[i.val]) ∧
    (∀ i : Fin 256, s.widx.toNat ≤ i.val →
      readWord s.nvMem (s.cursor.toNat + 4 * i.val) = some s.cfg.val.erased))

/-- All of it. -/
structure Inv (s : State) : Prop where
  script : NoTransactions s
  memory : MemoryOk s
  driver : DriverOk s
  phase : PhaseOk s
  session : SessionOk s
  counters : CountersOk s
  transfer : TransferOk s
  gate : GateOk s
  commit : CommitOk s

/-! ## The language of transcripts (R81) -/

/-- `b` may follow `a` in a transcript: after `'2'` an acknowledgment or the end; after `'S'` a page request or the end;
in an attempt `'P'`, then `'T'`s, then `'C'`; after `'C'` an error, the next page or the end; after `'E'` the page
again; after `'D'` nothing (R81). -/
def mayFollow (a b : Byte) : Bool :=
  if a = Config.symReady then b == Config.symAck || b == Config.symDone
  else if a = Config.symAck then b == Config.symPage || b == Config.symDone
  else if a = Config.symPage then b == Config.symTimeout || b == Config.symCsum
  else if a = Config.symTimeout then b == Config.symTimeout || b == Config.symCsum
  else if a = Config.symCsum then b == Config.symError || b == Config.symPage || b == Config.symDone
  else if a = Config.symError then b == Config.symPage
  else false

/-- Every symbol may follow the one before it. -/
def chained : List Byte → Bool
  | a :: b :: rest => mayFollow a b && chained (b :: rest)
  | _ => true

/-- The pages of a transcript that passed the gate: each `PAGE_OK` has one `'C'` more than it has `'E'`s (R81). -/
def pagesPassed (log : List Byte) : Nat := log.count Config.symCsum - log.count Config.symError

/-- A transcript is a prefix of the language: it is empty, or starts with `'2'` and is chained; and one that ends in `'D'`
is a whole word for a session of `n` pages: with an `'S'` part it has exactly `n` groups `PAGE_OK` (R81). -/
def transcriptOf (log : List Byte) (n : Nat) : Prop :=
  (log = [] ∨ log.head? = some Config.symReady) ∧
  chained log = true ∧
  (log.getLast? = some Config.symDone → Config.symAck ∈ log → pagesPassed log = n)

/-- The transcript so far belongs to the place in the protocol: the last symbol sent, the count of pages that passed the
gate, and the language. -/
def TranscriptOk (s : State) : Prop :=
  transcriptOf s.txLog s.rxByte.toNat ∧
  (s.within 0 1 → s.txLog = []) ∧
  (s.within 2 4 → s.txLog = [Config.symReady]) ∧
  (s.within 5 7 → s.txLog = [Config.symReady, Config.symAck]) ∧
  (s.within 8 8 → s.txLog.getLast? = some Config.symAck ∨ s.txLog.getLast? = some Config.symCsum ∨
    (s.txLog.getLast? = some Config.symError ∧ 0 < s.remaining.toNat)) ∧
  (s.within 9 11 → s.txLog.getLast? = some Config.symAck ∨ s.txLog.getLast? = some Config.symCsum ∨
    s.txLog.getLast? = some Config.symError) ∧
  (s.within 12 17 → s.txLog.getLast? = some Config.symPage ∨ s.txLog.getLast? = some Config.symTimeout) ∧
  (s.within 18 23 → s.txLog.getLast? = some Config.symCsum) ∧
  (s.within 24 24 → s.txLog.getLast? = some Config.symAck ∨ s.txLog.getLast? = some Config.symCsum) ∧
  (s.within 25 25 → (s.nvTiming = none ∧ s.txLog = [Config.symReady]) ∨
    (s.nvTiming ≠ none ∧ (s.txLog.getLast? = some Config.symAck ∨ s.txLog.getLast? = some Config.symCsum))) ∧
  (s.within 26 31 → s.txLog.getLast? = some Config.symDone) ∧
  (s.within 8 24 ∨ (s.within 25 31 ∧ s.nvTiming ≠ none) → Config.symAck ∈ s.txLog) ∧
  (s.within 26 31 ∧ s.nvTiming = none → s.txLog = [Config.symReady, Config.symDone]) ∧
  (s.within 6 17 ∨ s.within 24 24 ∨ (s.within 25 31 ∧ s.nvTiming ≠ none) →
    s.txLog.count Config.symCsum = s.txLog.count Config.symError + (s.rxByte.toNat - s.remaining.toNat)) ∧
  (s.within 18 23 →
    s.txLog.count Config.symCsum = s.txLog.count Config.symError + (s.rxByte.toNat - s.remaining.toNat) + 1)

/-! ## Runs of one agent -/

/-- `n` steps, stopping at the first fault or refusal. -/
def runSteps : Nat → State → Host.Outcome State Fault Refusal
  | 0, s => .next s
  | n + 1, s =>
    match step s with
    | .next s' => runSteps n s'
    | .fault r => .fault r
    | .refused r => .refused r

/-- `n` turns of one kind in the script, and nothing after them. -/
def State.withTurns (s : State) (n : Nat) (t : Turn) : State := { s with script := List.replicate n (.turn t) }

end Sys2Proof.Machine
end

