-- ==== Sys2Proof/Certificates/Slice0/Obligations.lean ====
section
/-! DEFINITION. The statements for the provers. "The model's choice" in a docstring names the log entry a clause rests
on; everything else is what the cited rules of `spec/` say. -/

open Sys2Proof Sys2Proof.Machine

/-! ## Reset, steps, encodings -/

/-- R30: the values the spec gives for reset. The registers R30 leaves unspecified are not spoken of. -/
def Obligations.ResetStateHasTheSpecsValues : Prop :=
  State.reset.st = Code.settleA ∧ State.reset.dly = State.reset.cfg.val.settleA ∧
  State.reset.txLog = [] ∧ State.reset.line = [] ∧ State.reset.rxEn = true ∧ State.reset.txEn = true ∧
  State.reset.sdArmed = false ∧ State.reset.sdDone = false ∧
  State.reset.nvLocked = true ∧ State.reset.nvTiming = none ∧
  State.reset.handoff = none ∧ State.reset.fault = none

/-- R261, R30, R276: a reset may come in any state, a faulted one too; it gives R30's values, keeps the valuation of the
parameters, and keeps every byte of storage but those of a page whose commit it cuts, which become indeterminate (the
whole page: the conservative form R276 allows, log 13). -/
def Obligations.ResetEventRestoresTheResetState : Prop :=
  ∀ s : State, (nextEvent s).1 = .turn .reset →
    ∃ t, step s = .next t ∧
      t.st = Code.settleA ∧ t.dly = s.cfg.val.settleA ∧ t.txLog = [] ∧ t.line = [] ∧
      t.rxEn = true ∧ t.txEn = true ∧ t.sdArmed = false ∧ t.sdDone = false ∧
      t.nvLocked = true ∧ t.nvTiming = none ∧ t.handoff = none ∧ t.fault = none ∧ t.cfg = s.cfg ∧
      (∀ a, readByte t.nvMem a =
        if (s.st = Code.erase ∨ s.st = Code.program ∨ s.st = Code.advance) ∧
            s.cursor.toNat ≤ a ∧ a < s.cursor.toNat + 1024
        then none else readByte s.nvMem a)

/-- R8, R11: the sequencer's turn, whether the script or the free schedule gives it (log 1), performs the operation
whose code is in `st`, on the state with that turn used up. -/
def Obligations.SequencerTurnRunsTheOperationSt : Prop :=
  ∀ (s : State) (i : Instr), s.fault = none → (nextEvent s).1 = .turn .sequencer →
    decode .state [s.st.setWidth 8] = .ok i →
    step s = exec i (nextEvent s).2 ∧
    (∀ e rest, s.script = e :: rest → (nextEvent s).2 = { s with script := rest }) ∧
    (s.script = [] → (nextEvent s).2 = { s with turnCount := s.turnCount + 1 })

/-- R80 and the model's choice (log 8): a transaction of the session whose bytes decode is performed, one of the operation
space whatever code `st` holds; any other is refused by name. -/
def Obligations.TransactionRunsItsDecodedInstruction : Prop :=
  ∀ (s : State) (rest : List Event) (sp : Space) (bs : List Byte), s.fault = none →
    s.script = .transaction sp bs :: rest →
    (∀ i, decode sp bs = .ok i → step s = exec i { s with script := rest }) ∧
    (∀ e, decode sp bs = .error e → step s = .refused (.undecodable e))

/-- R245, R31: each agent's turn, whether the script or the free schedule gives it, is that agent's step; the next event is
the head of the script, and, once the script is used up, the free schedule's turn (the model's choice, log 1). -/
def Obligations.EveryTurnIsItsAgentsStep : Prop :=
  (∀ (s : State) (b : Byte) (ready : Bool), s.fault = none →
    ((nextEvent s).1 = .turn .driver → step s = driverTurn (nextEvent s).2) ∧
    ((nextEvent s).1 = .turn (.host b) → step s = .next { (nextEvent s).2 with line := s.line ++ [b] }) ∧
    ((nextEvent s).1 = .turn .drop → step s = .next (dropTurn (nextEvent s).2)) ∧
    ((nextEvent s).1 = .turn (.transport ready) → step s = .next { (nextEvent s).2 with txReady := ready })) ∧
  (∀ (s : State) (e : Event) (rest : List Event), s.script = e :: rest →
    nextEvent s = (e, { s with script := rest })) ∧
  (∀ s : State, s.script = [] →
    nextEvent s = (.turn (Config.freeTurn s.turnCount), { s with turnCount := s.turnCount + 1 }) ∧
    step s = runTurn (Config.freeTurn s.turnCount) { s with turnCount := s.turnCount + 1 })

/-- R29, R241: a recorded fault is never cleared by a step; every event but a reset ends in it (that it is the next step
that ends in it is the model's inference, log 5). -/
def Obligations.FaultedMachineStops : Prop :=
  ∀ (s : State) (r : Fault), s.fault = some r → (nextEvent s).1 ≠ .turn .reset → step s = .fault r

/-- R7, R12, R241, V8: power-on with a valuation that meets the constraints gives the reset state under it (the values
R30 leaves unspecified are log 3's), with any other it is `fault ParameterConstraint`. That delays which a register of
`BUDGET_W` bits cannot hold break a constraint is the model's inference from R12 (log 18). -/
def Obligations.PowerOnChecksTheParameters : Prop :=
  ∀ p : ParamValues,
    (∀ h : p.Ok, powerOn p = .next (State.initial ⟨p, h⟩)) ∧
    (¬ p.Ok → powerOn p = .fault .parameterConstraint) ∧
    (p.Ok ↔
      p.appBase.toNat % 1024 = 0 ∧ p.appBase.toNat + 255 * 1024 + 1024 ≤ 2 ^ 32 ∧
      (p.appBase.toNat + 8 ≤ p.flashEnd.toNat ∧ p.flashEnd.toNat ≤ 2 ^ 32 ∧ p.flashEnd.toNat % 1024 = 0) ∧
      (1 ≤ p.timeoutInit ∧ p.timeoutInit ≤ 2 ^ p.budgetW - 1) ∧
      max p.settleA p.settleF < 2 ^ p.budgetW)

/-- R11, R71, R79: bytes written out from the spec's tables decode to what they stand for. -/
def Obligations.TableWordsDecode : Prop :=
  decode .state [0x00#8] = .ok .sSettleA ∧ decode .state [0x0C#8] = .ok .sAwaitPage ∧
  decode .state [0x16#8] = .ok .sProgram ∧ decode .state [0x1F#8] = .ok .sHandoff ∧
  decode .d2h [0x32#8] = .ok .symReady ∧ decode .d2h [0x44#8] = .ok .symDone ∧
  decode .port [0x10#8, 0x53#8] = .ok (.txSend 0x53#8) ∧
  decode .port [0x62#8, 0x00#8, 0x10#8, 0x00#8, 0x08#8] = .ok (.nvErasePage 0x08001000#32) ∧
  decode (.h2d .csum) [0x08#8, 0x52#8, 0x0A#8, 0x8B#8] = .ok (.csumFrame 0x8B0A5208#32) ∧
  decode .port [0x11#8] = .error (.unassignedPortCode 0x11#8)

/-- R71, R72, R76, R79: every well-formed instruction is what its space's decoder reads from its bytes. -/
def Obligations.DecodeReadsBackEveryEncoding : Prop :=
  ∀ i : Instr, i.wellFormed = true → decode i.space (encode i) = .ok i

/-- R70, R78: what a decoder accepts is the encoding of what it answers, in that space: no two byte strings of a space
stand for one instruction. -/
def Obligations.EncodeReadsBackEveryDecoding : Prop :=
  ∀ (sp : Space) (bs : List Byte) (i : Instr), decode sp bs = .ok i → i.space = sp ∧ encode i = bs

/-- R44: the bytes of the page buffer are those of its words, least significant first. -/
def Obligations.PageBufferWordsAreLittleEndian : Prop :=
  ∀ (buf : Vector Word 256) (i : Fin 256),
    (∀ k, k < 4 → pageByte buf (4 * i.val + k) = some (buf[i.val].extractLsb' (8 * k) 8)) ∧
    (∀ b0 b1 b2 b3, pageByte buf (4 * i.val) = some b0 → pageByte buf (4 * i.val + 1) = some b1 →
      pageByte buf (4 * i.val + 2) = some b2 → pageByte buf (4 * i.val + 3) = some b3 →
      buf[i.val] = b3 ++ b2 ++ b1 ++ b0)

/-! ## Handshake -/

/-- R101, R172: one iteration of a settling delay. -/
def Obligations.SettlingDelayCountsDown : Prop :=
  ∀ s : State,
    (0 < s.dly →
      exec .sSettleA s = .next { s with dly := s.dly - 1, st := Code.settleA } ∧
      exec .sSettleF s = .next { s with dly := s.dly - 1, st := Code.settleF }) ∧
    (s.dly = 0 →
      exec .sSettleA s = .next { s with st := Code.announce } ∧
      exec .sSettleF s = .next { s with st := Code.disable })

/-- R101, R172: a delay takes its length and one more steps, and only `st` and the counter change. -/
def Obligations.SettlingDelayTakesItsLengthAndOne : Prop :=
  ∀ (s : State) (n : Nat), s.fault = none → s.dly = n →
    (s.st = Code.settleA →
      runSteps (n + 1) (s.withTurns (n + 1) .sequencer) = .next { s with dly := 0, st := Code.announce, script := [] } ∧
      (∀ k, k ≤ n → ∃ t, runSteps k (s.withTurns (n + 1) .sequencer) = .next t ∧ t.st = Code.settleA)) ∧
    (s.st = Code.settleF →
      runSteps (n + 1) (s.withTurns (n + 1) .sequencer) = .next { s with dly := 0, st := Code.disable, script := [] } ∧
      (∀ k, k ≤ n → ∃ t, runSteps k (s.withTurns (n + 1) .sequencer) = .next t ∧ t.st = Code.settleF))

/-- R102, R105, R124, R127, R130, R133, R171: with a transmitter that is on and can take a byte, each of the seven sending
operations appends its symbol and goes on; `S_DONE_TX` also loads the delay. -/
def Obligations.SendingOperationsAppendTheirSymbol : Prop :=
  ∀ s : State, s.txEn = true → s.txReady = true →
    exec .sAnnounce s = .next { s with txLog := s.txLog ++ [0x32#8], st := Code.recvMagic } ∧
    exec .sAck s = .next { s with txLog := s.txLog ++ [0x53#8], st := Code.recvCount } ∧
    exec .sReqPage s = .next { s with txLog := s.txLog ++ [0x50#8], st := Code.awaitPage } ∧
    exec .sToTx s = .next { s with txLog := s.txLog ++ [0x54#8], st := Code.awaitPage } ∧
    exec .sReqCsum s = .next { s with txLog := s.txLog ++ [0x43#8], st := Code.awaitCsum } ∧
    exec .sErrTx s = .next { s with txLog := s.txLog ++ [0x45#8], st := Code.loopTest } ∧
    exec .sDoneTx s =
      .next { s with txLog := s.txLog ++ [0x44#8], dly := s.cfg.val.settleF, st := Code.settleF }

/-- R191, R192, R193: a send that the transport cannot take leaves the state as it is; with the transmitter off it
records `TransportDisabled` and nothing else. -/
def Obligations.BlockedOrDisabledSendsChangeNothing : Prop :=
  ∀ (s : State) (b : Byte) (i : Instr),
    i ∈ [.sAnnounce, .sAck, .sReqPage, .sToTx, .sReqCsum, .sErrTx, .sDoneTx, .txSend b, .symReady, .symAck, .symPage,
      .symTimeout, .symCsum, .symError, .symDone] →
    (s.txEn = true → s.txReady = false → exec i s = .next s) ∧
    (s.txEn = false → exec i s = .next { s with fault := some .transportDisabled })

/-- R103, R106, R194: a receive takes the oldest byte of the line; `S_RECV_COUNT` creates the session. -/
def Obligations.ReceivesTakeTheOldestByte : Prop :=
  ∀ (s : State) (b : Byte) (rest : List Byte), s.rxEn = true → s.sdArmed = false → s.line = b :: rest →
    exec .sRecvMagic s = .next { s with line := rest, rxByte := b, st := Code.auth } ∧
    exec .sRecvCount s =
      .next { s with line := rest, rxByte := b, remaining := b, cursor := s.cfg.val.appBase, st := Code.unlock } ∧
    exec .rxRecv s = .next { s with line := rest, rxByte := b }

/-- R103, R106, R193, R194, R196: without a byte, or while the driver is armed, a receive waits with nothing changed;
with the receiver off it records `TransportDisabled` and nothing else. -/
def Obligations.BlockedOrDisabledReceivesChangeNothing : Prop :=
  ∀ (s : State) (i : Instr), i ∈ [.sRecvMagic, .sRecvCount, .rxRecv] →
    (s.rxEn = true → s.sdArmed = true ∨ s.line = [] → exec i s = .next s) ∧
    (s.rxEn = false → exec i s = .next { s with fault := some .transportDisabled })

/-- R107, R108, R154, R173, R175, R176: the operations that issue one command that always completes. -/
def Obligations.SingleCommandOperationsComplete : Prop :=
  ∀ s : State,
    exec .sUnlock s = .next { s with nvLocked := false, st := Code.setTiming } ∧
    exec .sSetTiming s = .next { s with nvTiming := some s.cfg.val.nvmTiming, st := Code.loopTest } ∧
    exec .sLock s = .next { s with nvLocked := true, st := Code.doneTx } ∧
    exec .sDisable s = .next { s with rxEn := false, txEn := false, st := Code.bootRead } ∧
    exec .sBootVtbr s = .next { s with vtbr := s.cfg.val.appBase, st := Code.bootJump } ∧
    exec .sBootJump s = .next { s with handoff := some s.entry, st := Code.handoff }

/-! ## Page stream -/

/-- R104, R121, R131, R132, R231, R233: the four operations that only choose the next one. The magic byte, and no other,
authenticates. -/
def Obligations.TestsOnlyChooseTheNextOperation : Prop :=
  ∀ s : State,
    exec .sAuth s = .next { s with st := if s.rxByte = 0xAA#8 then Code.ack else Code.doneTx } ∧
    exec .sLoopTest s = .next { s with st := if s.remaining = 0#8 then Code.lock else Code.crcReset } ∧
    exec .sAwaitCsum s = .next { s with st := if s.sdDone = true then Code.verify else Code.awaitCsum } ∧
    exec .sVerify s = .next { s with st := if s.crcLocal = s.csumSlot then Code.erase else Code.errTx }

/-- R122, R128, R206: the checksum engine is reset; the local checksum of the buffer is what feeding its 256 words in
ascending order leaves, and from a reset accumulator it is CHECKSUM of the buffer. -/
def Obligations.LocalChecksumIsTheBuffersChecksum : Prop :=
  ∀ s : State,
    exec .sCrcReset s = .next { s with ckAcc := ckInit s.cfg.val.checksum, st := Code.armPage } ∧
    (∃ v, v = ckFeed s.cfg.val.checksum s.ckAcc s.pageBuf.toList ∧
      exec .sCrcCalc s = .next { s with crcLocal := v, ckAcc := v, st := Code.armCsum }) ∧
    (s.ckAcc = ckInit s.cfg.val.checksum →
      ∃ t, exec .sCrcCalc s = .next t ∧ t.crcLocal = checksum s.cfg.val.checksum s.pageBuf.toList)

/-- R123, R126, R129: the three re-arms: a new transfer from byte 0, the flag cleared, the budget loaded, everything else
kept, the bytes already in the buffer too. -/
def Obligations.RearmsStartTheTransferAnew : Prop :=
  ∀ s : State,
    exec .sArmPage s = .next { s with
      sdArmed := true, sdDest := .pageBuf, sdLen := 1024, sdCnt := 0, sdDone := false,
      budget := s.cfg.val.timeoutInit, st := Code.reqPage } ∧
    exec .sToRearm s = .next { s with
      sdArmed := true, sdDest := .pageBuf, sdLen := 1024, sdCnt := 0, sdDone := false,
      budget := s.cfg.val.timeoutInit, st := Code.toTx } ∧
    exec .sArmCsum s = .next { s with
      sdArmed := true, sdDest := .csumSlot, sdLen := 4, sdCnt := 0, sdDone := false,
      budget := s.cfg.val.timeoutInit, st := Code.reqCsum }

/-- R125, R232, R237: one poll. The flag wins; a clear flag costs one of the budget, and the last one is a timeout. -/
def Obligations.PollSamplesTheFlagBeforeTheBudget : Prop :=
  ∀ s : State,
    (s.sdDone = true → exec .sAwaitPage s = .next { s with st := Code.crcCalc }) ∧
    (s.sdDone = false → 1 < s.budget →
      exec .sAwaitPage s = .next { s with budget := s.budget - 1, st := Code.awaitPage }) ∧
    (s.sdDone = false → s.budget = 1 → exec .sAwaitPage s = .next { s with budget := 0, st := Code.toRearm })

/-- R125 (b), R232: with the flag clear, a budget of `n` is used up by exactly `n` polls, on the last of which the
timeout is raised. -/
def Obligations.TimeoutComesAfterTheWholeBudget : Prop :=
  ∀ (s : State) (n : Nat), s.fault = none → s.st = Code.awaitPage → s.sdDone = false → s.budget = n → 0 < n →
    runSteps n (s.withTurns n .sequencer) = .next { s with budget := 0, st := Code.toRearm, script := [] } ∧
    (∀ k, k < n → ∃ t, runSteps k (s.withTurns n .sequencer) = .next t ∧
      t.st = Code.awaitPage ∧ t.budget = n - k ∧ t.cursor = s.cursor ∧ t.remaining = s.remaining)

/-! ## Flash commit -/

/-- R151, R211, R60: an erase in range of unlocked storage sets every word of its page to ERASED and no byte outside it;
`S_ERASE` also clears the index. -/
def Obligations.EraseDestroysExactlyItsPage : Prop :=
  ∀ (s : State) (a : Word), a.toNat % 1024 = 0 → s.nvLocked = false → a.toNat + 1024 ≤ s.cfg.val.flashEnd.toNat →
    ∃ m : Memory,
      exec (.nvErasePage a) s = .next { s with nvMem := m } ∧
      (s.cursor = a → exec .sErase s = .next { s with nvMem := m, widx := 0#9, st := Code.program }) ∧
      (∀ i, i < 256 → readWord m (a.toNat + 4 * i) = some s.cfg.val.erased) ∧
      (∀ b, b < a.toNat ∨ a.toNat + 1024 ≤ b → readByte m b = readByte s.nvMem b)

/-- R48, R156, R210, R212: an erase that is misaligned, locked or out of range records its fault and changes nothing
else. Which fault is recorded where two apply is the model's choice (log 15). -/
def Obligations.EraseFaultsChangeNothing : Prop :=
  ∀ (s : State) (a : Word) (i : Instr), i = .nvErasePage a ∨ (i = .sErase ∧ s.cursor = a) →
    (a.toNat % 1024 ≠ 0 → exec i s = .next { s with fault := some .parameterConstraint }) ∧
    (a.toNat % 1024 = 0 → s.nvLocked = true → exec i s = .next { s with fault := some .storageLocked }) ∧
    (a.toNat % 1024 = 0 → s.nvLocked = false → s.cfg.val.flashEnd.toNat < a.toNat + 1024 →
      exec i s = .next { s with fault := some .storageOutOfRange })

/-- R152, R213: a program of an erased word of unlocked storage, in range, stores the word and no other byte. With an
index that names no word of the buffer the word stored is a draw: the model's choice (log 16). -/
def Obligations.ProgramStoresExactlyItsWord : Prop :=
  ∀ (s : State) (a d : Word), a.toNat % 4 = 0 → s.nvLocked = false → a.toNat + 4 ≤ s.cfg.val.flashEnd.toNat →
    readWord s.nvMem a.toNat = some s.cfg.val.erased →
    ∃ m : Memory,
      exec (.nvProgramWord a d) s = .next { s with nvMem := m } ∧
      (s.widx.toNat < 256 → programAddr s = a → s.pageBuf[s.widx.toNat]? = some d →
        exec .sProgram s = .next { s with
          nvMem := m, widx := s.widx + 1#9,
          st := if s.widx.toNat = 255 then Code.advance else Code.program }) ∧
      (256 ≤ s.widx.toNat → programAddr s = a → d = Config.freeWord s.draws →
        exec .sProgram s = .next { s with
          nvMem := m, widx := s.widx + 1#9, draws := s.draws + 1, st := Code.program }) ∧
      readWord m a.toNat = some d ∧
      (∀ b, b < a.toNat ∨ a.toNat + 4 ≤ b → readByte m b = readByte s.nvMem b)

/-- R48, R210, R212, R213: a program that is misaligned, locked or out of range records its fault and changes nothing
else; one of a word that is not erased records its fault and makes that word, and no other byte, indeterminate. Which
fault is recorded where two apply is the model's choice (log 15). -/
def Obligations.ProgramFaultsStoreNothing : Prop :=
  ∀ (s : State) (a d : Word) (i : Instr),
    i = .nvProgramWord a d ∨ (i = .sProgram ∧ programAddr s = a) →
    (a.toNat % 4 ≠ 0 → exec i s = .next { s with fault := some .parameterConstraint }) ∧
    (a.toNat % 4 = 0 → s.nvLocked = true → exec i s = .next { s with fault := some .storageLocked }) ∧
    (a.toNat % 4 = 0 → s.nvLocked = false → s.cfg.val.flashEnd.toNat < a.toNat + 4 →
      exec i s = .next { s with fault := some .storageOutOfRange }) ∧
    (a.toNat % 4 = 0 → s.nvLocked = false → a.toNat + 4 ≤ s.cfg.val.flashEnd.toNat →
      readWord s.nvMem a.toNat ≠ some s.cfg.val.erased →
      ∃ m : Memory, exec i s = .next { s with nvMem := m, fault := some .programNotErased } ∧
        (∀ b, readByte m b = if a.toNat ≤ b ∧ b < a.toNat + 4 then none else readByte s.nvMem b))

/-- R153: the session advances by one page, and nothing else changes. -/
def Obligations.AdvanceMovesTheSessionByOnePage : Prop :=
  ∀ s : State,
    exec .sAdvance s =
      .next { s with cursor := s.cursor + 1024#32, remaining := s.remaining - 1#8, st := Code.loopTest } ∧
    (0 < s.remaining.toNat → s.cursor.toNat + 1024 < 2 ^ 32 →
      ∃ t, exec .sAdvance s = .next t ∧ t.cursor.toNat = s.cursor.toNat + 1024 ∧
        t.remaining.toNat + 1 = s.remaining.toNat)

/-- R150, R152, R155, R47: from the gate, erase and 256 programs leave the page's content equal to the buffer, word for
word and byte for byte, change no byte outside the page, and end at `S_ADVANCE` with everything else as it was. -/
def Obligations.CommitMakesThePageEqualTheBuffer : Prop :=
  ∀ s : State, s.fault = none → s.st = Code.erase → s.nvLocked = false → s.cursor.toNat % 1024 = 0 →
    s.cursor.toNat + 1024 ≤ s.cfg.val.flashEnd.toNat →
    ∃ m : Memory,
      runSteps 257 (s.withTurns 257 .sequencer) =
        .next { s with nvMem := m, widx := 256#9, st := Code.advance, script := [] } ∧
      (∀ i : Fin 256, readWord m (s.cursor.toNat + 4 * i.val) = some s.pageBuf[i.val]) ∧
      (∀ j, j < 1024 → readByte m (s.cursor.toNat + j) = pageByte s.pageBuf j) ∧
      (∀ b, b < s.cursor.toNat ∨ s.cursor.toNat + 1024 ≤ b → readByte m b = readByte s.nvMem b)

/-! ## Finalize and boot -/

/-- R174, R215: the vector read returns the word at `APP_BASE + 4`, whether storage is locked or not; an indeterminate
word gives a draw, and the next such read another one. -/
def Obligations.ReadReturnsTheWordOrADraw : Prop :=
  ∀ (s : State) (a : Word), a.toNat % 4 = 0 → a.toNat + 4 ≤ s.cfg.val.flashEnd.toNat →
    (∀ w, readWord s.nvMem a.toNat = some w →
      exec (.nvRead32 a) s = .next { s with entry := w } ∧
      (a = s.cfg.val.appBase + 4#32 → exec .sBootRead s = .next { s with entry := w, st := Code.bootVtbr })) ∧
    (readWord s.nvMem a.toNat = none →
      exec (.nvRead32 a) s = .next { s with entry := Config.freeWord s.draws, draws := s.draws + 1 } ∧
      (a = s.cfg.val.appBase + 4#32 →
        exec .sBootRead s =
          .next { s with entry := Config.freeWord s.draws, draws := s.draws + 1, st := Code.bootVtbr }))

/-- R48, R212: a read that is misaligned or out of range records its fault and changes nothing else; the boot read is
neither, whatever the valuation. -/
def Obligations.ReadFaultsChangeNothing : Prop :=
  ∀ (s : State) (a : Word),
    (a.toNat % 4 ≠ 0 → exec (.nvRead32 a) s = .next { s with fault := some .parameterConstraint }) ∧
    (a.toNat % 4 = 0 → s.cfg.val.flashEnd.toNat < a.toNat + 4 →
      exec (.nvRead32 a) s = .next { s with fault := some .storageOutOfRange }) ∧
    (entryVectorAddr s).toNat % 4 = 0 ∧ (entryVectorAddr s).toNat + 4 ≤ s.cfg.val.flashEnd.toNat

/-- R177: at `S_HANDOFF` the sequencer changes nothing (that its turn is then a step at all is the model's choice,
log 6), so a run that is over stays over until a reset. -/
def Obligations.HandoffIsTerminal : Prop :=
  (∀ s : State, exec .sHandoff s = .next s) ∧
  (∀ (s t : State) (u : Turn), s.over → (nextEvent s).1 = .turn u → u ≠ .reset →
    step s = .next t → t.over ∧ t.handoff = s.handoff ∧ t.vtbr = s.vtbr ∧ t.nvMem = s.nvMem ∧ t.txLog = s.txLog)

/-! ## Ports, wire, agents -/

/-- R205: `CK.RESET` puts the accumulator in its initial value, in every state. -/
def Obligations.ChecksumResetAlwaysCompletes : Prop :=
  ∀ s : State, exec .ckReset s = .next { s with ckAcc := ckInit s.cfg.val.checksum }

/-- R201: `SD.ARM` forgets whatever transfer there was, in every state; buffers and line are as they were. That an arm
presented by itself leaves the budget as it was, which the operations load (R16), is the model's choice (log 8). -/
def Obligations.ArmForgetsTheTransferBefore : Prop :=
  ∀ (s : State) (dest : Dest) (len : BitVec 11), 1 ≤ len.toNat →
    exec (.sdArm dest len) s = .next { s with
      sdArmed := true, sdDest := dest, sdLen := len.toNat, sdCnt := 0, sdDone := false }

/-- R217: `SYS.SET_VTBR` and `SYS.JUMP`, after which `S_HANDOFF` is the next and last state. That the sequencer's turn
there answers the state unchanged is the model's choice (log 6). -/
def Obligations.SystemPortRecordsTheHandoff : Prop :=
  ∀ (s : State) (a e : Word),
    exec (.sysSetVtbr a) s = .next { s with vtbr := a } ∧
    exec (.sysJump e) s = .next { s with handoff := some e, st := Code.handoff } ∧
    exec .sHandoff { s with handoff := some e, st := Code.handoff } =
      .next { s with handoff := some e, st := Code.handoff }

/-- R209: `NV.UNLOCK` is always enabled and clears the lock; unlocking an unlocked storage changes nothing. -/
def Obligations.UnlockAlwaysCompletes : Prop :=
  ∀ s : State,
    exec .nvUnlock s = .next { s with nvLocked := false } ∧
    (s.nvLocked = false → exec .nvUnlock s = .next s)

/-- R195, R202, R206, R209, R210, R214 (with R190 for where a result goes): the port commands that always complete. -/
def Obligations.UngatedPortCommandsComplete : Prop :=
  ∀ (s : State) (v : Word),
    exec .trDisable s = .next { s with rxEn := false, txEn := false } ∧
    exec .sdDone s = .next s ∧
    (∃ w, w = ckFeed s.cfg.val.checksum s.ckAcc s.pageBuf.toList ∧
      exec .ckBlock s = .next { s with ckAcc := w, crcLocal := w }) ∧
    exec .nvUnlock s = .next { s with nvLocked := false } ∧
    exec (.nvSetTiming v) s = .next { s with nvTiming := some v } ∧
    exec .nvLock s = .next { s with nvLocked := true }

/-- R71, R80, R192: a symbol of the session is sent by `TX.SEND` of its byte. -/
def Obligations.SymbolsAreSentAsTheirBytes : Prop :=
  ∀ (s : State) (b : Byte), s.txEn = true → s.txReady = true →
    exec (.txSend b) s = .next { s with txLog := s.txLog ++ [b] } ∧
    exec .symReady s = .next { s with txLog := s.txLog ++ [0x32#8] } ∧
    exec .symAck s = .next { s with txLog := s.txLog ++ [0x53#8] } ∧
    exec .symPage s = .next { s with txLog := s.txLog ++ [0x50#8] } ∧
    exec .symTimeout s = .next { s with txLog := s.txLog ++ [0x54#8] } ∧
    exec .symCsum s = .next { s with txLog := s.txLog ++ [0x43#8] } ∧
    exec .symError s = .next { s with txLog := s.txLog ++ [0x45#8] } ∧
    exec .symDone s = .next { s with txLog := s.txLog ++ [0x44#8] }

/-- R72, R80, R218: a frame joins the line in line order, the checksum least significant byte first. -/
def Obligations.HostFramesJoinTheLine : Prop :=
  ∀ (s : State) (m n : Byte) (b : List Byte) (c : Word),
    exec (.magicFrame m) s = .next { s with line := s.line ++ [m] } ∧
    exec (.countFrame n) s = .next { s with line := s.line ++ [n] } ∧
    exec (.pageFrame b) s = .next { s with line := s.line ++ b } ∧
    exec (.csumFrame c) s = .next { s with line := s.line ++
      [c.extractLsb' 0 8, c.extractLsb' 8 8, c.extractLsb' 16 8, c.extractLsb' 24 8] }

/-- R80, R218: a page frame is its bytes put on the line by the host one at a time. -/
def Obligations.PageFrameIsItsBytesOneByOne : Prop :=
  ∀ (s : State) (b : List Byte), s.fault = none → s.script = b.map (fun x => Event.turn (.host x)) →
    ∃ t, exec (.pageFrame b) { s with script := [] } = .next t ∧ runSteps b.length s = .next t

/-- R203, R46: the driver's step: one byte, at the index of its count, and the flag with the last. An armed driver whose
index names no byte of its destination is refused by name: the model's choice (log 16). -/
def Obligations.DriverStoresOneBytePerStep : Prop :=
  ∀ (s : State) (b : Byte) (rest : List Byte), s.sdArmed = true → s.rxEn = true → s.line = b :: rest →
    (s.sdDest.size ≤ s.sdCnt → driverTurn s = .refused (.driverOutsideDestination s.sdCnt)) ∧
    (s.sdCnt < s.sdDest.size →
    ∃ t, driverTurn s = .next t ∧ t.line = rest ∧ t.sdCnt = s.sdCnt + 1 ∧
      (s.sdDest = .pageBuf → t.csumSlot = s.csumSlot ∧
        ∀ j, pageByte t.pageBuf j = if j = s.sdCnt then some b else pageByte s.pageBuf j) ∧
      (s.sdDest = .csumSlot → t.pageBuf = s.pageBuf ∧
        ∀ j, j < 4 → byteOf t.csumSlot j = if j = s.sdCnt then b else byteOf s.csumSlot j) ∧
      (t.sdDone = if s.sdCnt + 1 = s.sdLen then true else s.sdDone) ∧
      (t.sdArmed = if s.sdCnt + 1 = s.sdLen then false else true) ∧
      t = { s with
        line := t.line, sdCnt := t.sdCnt, sdDone := t.sdDone, sdArmed := t.sdArmed,
        pageBuf := t.pageBuf, csumSlot := t.csumSlot })

/-- R204: a driver that is not armed takes no step, so each buffer is stable until an arm with that destination: over
every turn but a reset only the three arming operations arm the driver or change its destination, and `SD.ARM` itself
stores nothing (R201); surplus bytes stay on the line, unsolicited (R197); and an armed driver is disarmed by completion
and reset only, not by `TR.DISABLE`: with the receiver off it has no enabled step. That a driver with no enabled step has
a turn, which changes nothing, is the model's choice (log 6). -/
def Obligations.BuffersAreStableWithoutTheDriver : Prop :=
  (∀ s : State, s.sdArmed = false ∨ s.rxEn = false → driverTurn s = .next s) ∧
  (∀ s : State, s.sdDone = true → unsolicited s = true) ∧
  (∀ (s t : State) (dest : Dest) (len : BitVec 11), exec (.sdArm dest len) s = .next t →
    t.pageBuf = s.pageBuf ∧ t.csumSlot = s.csumSlot) ∧
  (∀ (s t : State) (u : Turn), (nextEvent s).1 = .turn u → u ≠ .reset → step s = .next t →
    (s.sdArmed = false ∨ s.sdDest = .csumSlot → t.pageBuf = s.pageBuf) ∧
    (s.sdArmed = false ∨ s.sdDest = .pageBuf → t.csumSlot = s.csumSlot) ∧
    (s.sdArmed = true → t.sdArmed = true ∨ (u = .driver ∧ t.sdCnt = s.sdLen ∧ t.sdDone = true)) ∧
    (¬ (u = .sequencer ∧ (s.st = Code.armPage ∨ s.st = Code.toRearm ∨ s.st = Code.armCsum)) →
      (s.sdArmed = false → t.sdArmed = false) ∧ t.sdDest = s.sdDest ∧ t.sdLen = s.sdLen))

/-- R197, R195, R196: the environment may drop the head of the line exactly when no consumer wants it. -/
def Obligations.DropTakesOnlyUnsolicitedBytes : Prop :=
  ∀ s : State,
    ((s.rxEn = true ∧ s.sdArmed = true ∧ s.sdDone = false) ∨
      (s.rxEn = true ∧ s.sdDone = false ∧ (s.st = Code.recvMagic ∨ s.st = Code.recvCount)) → dropTurn s = s) ∧
    (s.sdArmed = false → s.st ≠ Code.recvMagic → s.st ≠ Code.recvCount →
      dropTurn s = { s with line := s.line.tail }) ∧
    (s.sdDone = true ∨ s.rxEn = false → dropTurn s = { s with line := s.line.tail })

/-- R46, R52, R203: 1024 driver steps over 1024 bytes fill the page buffer in line order, set the flag, and leave the
rest of the line; nothing else changes. -/
def Obligations.PageTransferFillsTheBufferInLineOrder : Prop :=
  ∀ (s : State) (bs rest : List Byte), s.fault = none → s.rxEn = true → s.sdArmed = true → s.sdDone = false →
    s.sdDest = .pageBuf → s.sdLen = 1024 → s.sdCnt = 0 → bs.length = 1024 → s.line = bs ++ rest →
    ∃ buf : Vector Word 256,
      runSteps 1024 (s.withTurns 1024 .driver) = .next { s with
        pageBuf := buf, line := rest, sdCnt := 1024, sdDone := true, sdArmed := false, script := [] } ∧
      (∀ k, k < 1024 → pageByte buf k = bs[k]?)

/-- R45, R74, R203: four driver steps assemble the checksum, first byte least significant. -/
def Obligations.ChecksumTransferAssemblesTheSlot : Prop :=
  ∀ (s : State) (c0 c1 c2 c3 : Byte) (rest : List Byte), s.fault = none → s.rxEn = true → s.sdArmed = true →
    s.sdDone = false → s.sdDest = .csumSlot → s.sdLen = 4 → s.sdCnt = 0 → s.line = c0 :: c1 :: c2 :: c3 :: rest →
    runSteps 4 (s.withTurns 4 .driver) = .next { s with
      csumSlot := c3 ++ c2 ++ c1 ++ c0, line := rest, sdCnt := 4, sdDone := true, sdArmed := false, script := [] }

/-- R238, R239: raising an event, and returning from one, writes `st` and nothing else; the targets are fixed. -/
def Obligations.EventsChangeOnlySt : Prop :=
  ∀ s : State,
    raiseEvent .authMismatch s = { s with st := Code.doneTx } ∧
    raiseEvent .receiveTimeout s = { s with st := Code.toRearm } ∧
    raiseEvent .checksumMismatch s = { s with st := Code.errTx } ∧
    resumeFrom .receiveTimeout s = { s with st := Code.awaitPage } ∧
    resumeFrom .checksumMismatch s = { s with st := Code.loopTest }

/-! ## Rules of the whole machine -/

/-- R9, R77, R238: the sequencer never refuses, in any state; it moves along the table's edges only; it stays where it is
when its transaction is blocked, when the run is over (that such a turn answers the state unchanged is the model's choice,
log 6), or when a fault is recorded. -/
def Obligations.SequencerFollowsTheTransitionTable : Prop :=
  ∀ s : State, ∃ t, exec (fetch s) s = .next t ∧ (s.fault = none →
    t.st ∈ successors s.st ∨ (t = s ∧ (blocked (fetch s) s = true ∨ s.st = Code.handoff)) ∨
      (t.st = s.st ∧ t.fault ≠ none))

/-- R135, R153: of everything that can happen but a reset, only `S_RECV_COUNT` and `S_ADVANCE` change the session
registers. -/
def Obligations.OnlyTwoOperationsChangeTheSession : Prop :=
  ∀ (s t : State) (u : Turn), (nextEvent s).1 = .turn u → u ≠ .reset →
    (u = .sequencer → s.st ≠ Code.recvCount ∧ s.st ≠ Code.advance) →
    step s = .next t → t.cursor = s.cursor ∧ t.remaining = s.remaining

/-- R57, R133, R158: no agent but the sequencer, and no operation but `S_ERASE` and `S_PROGRAM`, changes a byte of storage;
without authentication not even these are reached. -/
def Obligations.StorageChangesOnlyInACommit : Prop :=
  ∀ (s t : State) (u : Turn), (nextEvent s).1 = .turn u → u ≠ .reset → step s = .next t →
    ((u = .sequencer → s.st ≠ Code.erase ∧ s.st ≠ Code.program) → t.nvMem = s.nvMem) ∧
    (PhaseOk s → s.nvTiming = none → t.nvMem = s.nvMem)

/-- R71, R24: the transcript only grows, one symbol at a time, and only by the seven symbols. -/
def Obligations.TranscriptGrowsBySymbolsOnly : Prop :=
  ∀ (s t : State) (u : Turn), (nextEvent s).1 = .turn u → u ≠ .reset → step s = .next t →
    t.txLog = s.txLog ∨
    ∃ c ∈ [Config.symReady, Config.symAck, Config.symPage, Config.symTimeout, Config.symCsum, Config.symError,
      Config.symDone], t.txLog = s.txLog ++ [c]

/-- R195: after `TR.DISABLE` the transcript never grows and no consumer takes a byte: the line changes only by what the
host adds and the environment drops; nothing but a reset enables the transport again. -/
def Obligations.DisabledTransportStaysSilent : Prop :=
  (∀ s : State, exec .trDisable s = .next { s with rxEn := false, txEn := false }) ∧
  (∀ (s t : State) (u : Turn), s.rxEn = false → s.txEn = false → (nextEvent s).1 = .turn u → u ≠ .reset →
    step s = .next t →
    t.rxEn = false ∧ t.txEn = false ∧ t.txLog = s.txLog ∧ t.rxByte = s.rxByte ∧
    t.pageBuf = s.pageBuf ∧ t.csumSlot = s.csumSlot ∧
    (t.line = s.line ∨ (∃ b, u = .host b ∧ t.line = s.line ++ [b]) ∨
      (u = .drop ∧ t.line = s.line.tail)))

/-- R51, R194, R218: a byte the host adds does not touch what the sequencer does: unless a receive waits for it, the
operation and the host's step commute. -/
def Obligations.HostBytesCommuteWithTheSequencer : Prop :=
  ∀ (s t : State) (b : Byte) (i : Instr), i.space = .state →
    (i = .sRecvMagic ∨ i = .sRecvCount → s.line ≠ []) → exec i s = .next t →
    exec i { s with line := s.line ++ [b] } = .next { t with line := t.line ++ [b] }

/-! ## Invariants -/

/-- R27: storage keeps its canonical form, below `FLASH_END`, whatever happens, transactions of a session too. -/
def Obligations.StepKeepsTheMemoryForm : Prop :=
  ∀ s t : State, MemoryOk s → step s = .next t → MemoryOk t

/-- R200: every step keeps the invariants of the driver state. -/
def Obligations.StepKeepsTheDriverState : Prop :=
  ∀ s t : State, NoTransactions s → DriverOk s → step s = .next t → NoTransactions t ∧ DriverOk t

/-- R57, R150, R193, R28: every step keeps what the place in the protocol fixes of lock, transport, timing and hand-off. -/
def Obligations.StepKeepsThePhase : Prop :=
  ∀ s t : State, NoTransactions s → PhaseOk s → step s = .next t → PhaseOk t

/-- R32, R14, R15: every step keeps the equations of the session registers. -/
def Obligations.StepKeepsTheSession : Prop :=
  ∀ s t : State, NoTransactions s → PhaseOk s → SessionOk s → step s = .next t → SessionOk t

/-- All the invariants of `Sys2Proof/Safety.lean` at once, the gate (R132) and the commit (R155) among them. -/
def Obligations.StepKeepsTheInvariant : Prop := ∀ s t : State, Inv s → step s = .next t → Inv t

/-- The invariants hold right after reset. -/
def Obligations.InvariantHoldsAtReset : Prop := Inv State.reset ∧ TranscriptOk State.reset

/-- R29, R156, R241: from a state that meets the invariant, with the page of a commit below `FLASH_END`, every step
answers a next state without a fault: no fault and no refusal is reached. -/
def Obligations.InvariantRulesOutEveryStop : Prop :=
  ∀ s : State, Inv s → s.fault = none →
    (s.st = Code.erase → s.cursor.toNat + 1024 ≤ s.cfg.val.flashEnd.toNat) →
    ∃ t, step s = .next t ∧ t.fault = none

/-- R81: every step keeps the transcript in the language, with as many pages passed as the session has committed. -/
def Obligations.StepKeepsTheTranscriptLanguage : Prop :=
  ∀ s t : State, Inv s → TranscriptOk s → step s = .next t → TranscriptOk t
end

