-- ==== Sys2Proof/Laws/Bytes.lean ====
section
/-! SUPPORT. Byte order: taking a word apart and putting it together are inverse (`20_memory.md` R43 to R45). -/

namespace Sys2Proof.Laws

open Sys2Proof Sys2Proof.Machine

/-- The bits of an assembled word. -/
theorem getLsbD_leWord (b0 b1 b2 b3 : Byte) (i : Nat) :
    (leWord b0 b1 b2 b3).getLsbD i =
      if i < 8 then b0.getLsbD i
      else if i - 8 < 8 then b1.getLsbD (i - 8)
      else if i - 8 - 8 < 8 then b2.getLsbD (i - 8 - 8)
      else b3.getLsbD (i - 8 - 8 - 8) := by
  show BitVec.getLsbD (w := 8 + 8 + 8 + 8) (b3 ++ b2 ++ b1 ++ b0) i = _
  simp only [BitVec.getLsbD_append]

@[simp] theorem byteOf_leWord_zero (b0 b1 b2 b3 : Byte) : byteOf (leWord b0 b1 b2 b3) 0 = b0 := by
  apply BitVec.eq_of_getLsbD_eq
  intro i hi
  simp only [byteOf, BitVec.getLsbD_extractLsb', getLsbD_leWord, hi, decide_true, Bool.true_and]
  simp [hi]

@[simp] theorem byteOf_leWord_one (b0 b1 b2 b3 : Byte) : byteOf (leWord b0 b1 b2 b3) 1 = b1 := by
  apply BitVec.eq_of_getLsbD_eq
  intro i hi
  simp only [byteOf, BitVec.getLsbD_extractLsb', getLsbD_leWord, hi, decide_true, Bool.true_and]
  rw [if_neg (by omega : ¬ 8 * 1 + i < 8), if_pos (by omega : 8 * 1 + i - 8 < 8)]
  congr 1
  omega

@[simp] theorem byteOf_leWord_two (b0 b1 b2 b3 : Byte) : byteOf (leWord b0 b1 b2 b3) 2 = b2 := by
  apply BitVec.eq_of_getLsbD_eq
  intro i hi
  simp only [byteOf, BitVec.getLsbD_extractLsb', getLsbD_leWord, hi, decide_true, Bool.true_and]
  rw [if_neg (by omega : ¬ 8 * 2 + i < 8), if_neg (by omega : ¬ 8 * 2 + i - 8 < 8), if_pos (by omega : 8 * 2 + i - 8 - 8 < 8)]
  congr 1
  omega

@[simp] theorem byteOf_leWord_three (b0 b1 b2 b3 : Byte) : byteOf (leWord b0 b1 b2 b3) 3 = b3 := by
  apply BitVec.eq_of_getLsbD_eq
  intro i hi
  simp only [byteOf, BitVec.getLsbD_extractLsb', getLsbD_leWord, hi, decide_true, Bool.true_and]
  rw [if_neg (by omega : ¬ 8 * 3 + i < 8), if_neg (by omega : ¬ 8 * 3 + i - 8 < 8), if_neg (by omega : ¬ 8 * 3 + i - 8 - 8 < 8)]
  congr 1
  omega

@[simp] theorem leWord_byteOf (w : Word) : leWord (byteOf w 0) (byteOf w 1) (byteOf w 2) (byteOf w 3) = w := by
  apply BitVec.eq_of_getLsbD_eq
  intro i hi
  rw [getLsbD_leWord]
  simp only [byteOf, BitVec.getLsbD_extractLsb']
  split
  · simp [*]
  split
  · simp [show 8 + (i - 8) = i by omega, *]
  split
  · simp [show 16 + (i - 8 - 8) = i by omega, *]
  · simp [show 24 + (i - 8 - 8 - 8) = i by omega, show i - 8 - 8 - 8 < 8 by omega]

/-- Replacing a byte changes that byte and no other (R44, R45). -/
theorem byteOf_setByteOf (w : Word) (k j : Nat) (b : Byte) (hk : k < 4) (hj : j < 4) :
    byteOf (setByteOf w k b) j = if j = k then b else byteOf w j := by
  have hk' : k = 0 ∨ k = 1 ∨ k = 2 ∨ k = 3 := by omega
  have hj' : j = 0 ∨ j = 1 ∨ j = 2 ∨ j = 3 := by omega
  rcases hk' with rfl | rfl | rfl | rfl <;> rcases hj' with rfl | rfl | rfl | rfl <;> simp [setByteOf]

/-- Two words with equal bytes are equal. -/
theorem word_ext {v w : Word} (h : ∀ j, j < 4 → byteOf v j = byteOf w j) : v = w := by
  rw [← leWord_byteOf v, ← leWord_byteOf w, h 0 (by omega), h 1 (by omega), h 2 (by omega), h 3 (by omega)]

/-- A byte stored in the page buffer is read back; every other byte is as before (R44). -/
theorem pageByte_setPageByte (buf : Vector Word 256) (k j : Nat) (b : Byte) (hk : k < 1024) :
    pageByte (setPageByte buf k b) j = if j = k then some b else pageByte buf j := by
  have h : k / 4 < 256 := by omega
  simp only [pageByte, setPageByte, dif_pos h]
  by_cases hq : j / 4 = k / 4
  · rw [hq]
    simp only [h, Vector.getElem?_eq_getElem, Vector.getElem_set_self, Option.map_some]
    rw [byteOf_setByteOf _ _ _ _ (by omega) (by omega)]
    by_cases hj : j = k
    · simp [hj]
    · have : ¬ j % 4 = k % 4 := by omega
      simp [hj, this]
  · have hj : ¬ j = k := by rintro rfl; exact hq rfl
    rw [Vector.getElem?_set_ne _ (by omega)]
    simp [hj]

end Sys2Proof.Laws
end

