-- ==== Sys2Proof/Laws/Memory.lean ====
section
/-! SUPPORT. The laws of storage content: reads after writes, the canonical form, the page fill. -/

namespace Sys2Proof.Laws

open Sys2Proof Sys2Proof.Machine

/-! ## One byte -/

/-- A read gives the byte just written at that address, and what it gave before elsewhere. -/
theorem readByte_writeByte (m : Memory) (a b : Nat) (v : Byte) :
    readByte (writeByte m a v) b = if b = a then some v else readByte m b := by
  induction m with
  | nil => simp [writeByte, readByte, @eq_comm _ a b]
  | cons c m ih =>
    obtain ⟨k, w⟩ := c
    simp only [writeByte]
    split
    · by_cases h : b = a
      · simp [readByte, h]
      · simp [readByte, h, Ne.symm h]
    · split
      · subst_vars
        by_cases h : b = k
        · simp [readByte, h]
        · simp [readByte, h, Ne.symm h]
      · by_cases hk : k = b
        · have : b ≠ a := by omega
          simp [readByte, hk, this]
        · simp [readByte, hk, ih]

/-- The addresses listed after a write are those before and the one written. -/
theorem mem_writeByte {m : Memory} {a : Nat} {v : Byte} {c : Host.Cell} (h : c ∈ writeByte m a v) :
    c = (a, v) ∨ c ∈ m := by
  induction m with
  | nil => simp_all [writeByte]
  | cons d m ih =>
    obtain ⟨k, w⟩ := d
    simp only [writeByte] at h
    split at h
    · simpa using h
    · split at h
      · simp only [List.mem_cons] at h ⊢
        tauto
      · simp only [List.mem_cons] at h ⊢
        rcases h with h | h
        · tauto
        · rcases ih h with h | h <;> tauto

/-- A write keeps the canonical form. -/
theorem wf_writeByte {m : Memory} (h : m.wf) (a : Nat) (v : Byte) : Memory.wf (writeByte m a v) := by
  induction m with
  | nil => simp [writeByte, Memory.wf]
  | cons c m ih =>
    obtain ⟨k, w⟩ := c
    obtain ⟨hk, hm⟩ := List.pairwise_cons.1 h
    simp only [writeByte]
    split
    · refine List.pairwise_cons.2 ⟨?_, h⟩
      intro d hd
      rcases List.mem_cons.1 hd with rfl | hd
      · simpa using ‹a < k›
      · exact lt_trans (by simpa using ‹a < k›) (hk d hd)
    · split
      · subst_vars
        exact List.pairwise_cons.2 ⟨hk, hm⟩
      · refine List.pairwise_cons.2 ⟨?_, ih hm⟩
        intro d hd
        rcases mem_writeByte hd with rfl | hd
        · show k < a
          omega
        · exact hk d hd

/-! ## Forgetting -/

theorem mem_forget {m : Memory} {a n : Nat} {c : Host.Cell} :
    c ∈ forget m a n ↔ c ∈ m ∧ (c.1 < a ∨ a + n ≤ c.1) := by simp [forget]

theorem wf_forget {m : Memory} (h : m.wf) (a n : Nat) : Memory.wf (forget m a n) := List.Pairwise.filter _ h

/-- Bytes made indeterminate read as none; every other byte is as before (R276). -/
theorem readByte_forget (m : Memory) (a n b : Nat) :
    readByte (forget m a n) b = if a ≤ b ∧ b < a + n then none else readByte m b := by
  induction m with
  | nil => simp [forget, readByte]
  | cons c m ih =>
    obtain ⟨k, w⟩ := c
    simp only [forget] at ih
    by_cases hk : k < a ∨ a + n ≤ k
    · simp only [forget, List.filter_cons, hk, decide_true, if_true, readByte, ih]
      by_cases hb : k = b
      · have : ¬ (a ≤ b ∧ b < a + n) := by omega
        simp [hb, this]
      · simp [hb]
    · simp only [forget, List.filter_cons, hk, decide_false, Bool.false_eq_true, if_false, ih, readByte]
      by_cases hb : k = b
      · have : a ≤ b ∧ b < a + n := by omega
        simp [this]
      · simp [hb]

/-! ## One word -/

/-- A program stores the word's four bytes and nothing else (R43). -/
theorem readByte_writeWord (m : Memory) (a b : Nat) (w : Word) :
    readByte (writeWord m a w) b = if a ≤ b ∧ b < a + 4 then some (byteOf w (b - a)) else readByte m b := by
  simp only [writeWord, readByte_writeByte]
  by_cases h0 : b = a
  · subst h0; simp
  by_cases h1 : b = a + 1
  · subst h1; simp
  by_cases h2 : b = a + 2
  · subst h2; simp
  by_cases h3 : b = a + 3
  · subst h3; simp
  have : ¬ (a ≤ b ∧ b < a + 4) := by omega
  simp [h0, h1, h2, h3, this]

theorem wf_writeWord {m : Memory} (h : m.wf) (a : Nat) (w : Word) : Memory.wf (writeWord m a w) :=
  wf_writeByte (wf_writeByte (wf_writeByte (wf_writeByte h _ _) _ _) _ _) _ _

theorem mem_writeWord {m : Memory} {a : Nat} {w : Word} {c : Host.Cell} (h : c ∈ writeWord m a w) :
    (a ≤ c.1 ∧ c.1 < a + 4) ∨ c ∈ m := by
  rcases mem_writeByte h with rfl | h
  · left; simp
  rcases mem_writeByte h with rfl | h
  · left; simp
  rcases mem_writeByte h with rfl | h
  · left; simp
  rcases mem_writeByte h with rfl | h
  · left; simp
  · exact Or.inr h

/-- A word read after a program of the same address is the word programmed (R43). -/
theorem readWord_writeWord_self (m : Memory) (a : Nat) (w : Word) : readWord (writeWord m a w) a = some w := by
  simp [readWord, readByte_writeWord]

/-- Reading a word depends on its four bytes only. -/
theorem readWord_congr {m m' : Memory} {a : Nat} (h : ∀ b, a ≤ b → b < a + 4 → readByte m b = readByte m' b) :
    readWord m a = readWord m' a := by
  simp only [readWord, h a (by omega) (by omega), h (a + 1) (by omega) (by omega), h (a + 2) (by omega) (by omega),
    h (a + 3) (by omega) (by omega)]

/-- A program leaves every word it does not overlap as it was. -/
theorem readWord_writeWord_other (m : Memory) (a b : Nat) (w : Word) (h : b + 4 ≤ a ∨ a + 4 ≤ b) :
    readWord (writeWord m a w) b = readWord m b := by
  refine readWord_congr fun c h1 h2 => ?_
  rw [readByte_writeWord, if_neg (by omega)]

/-! ## The page fill -/

/-- A fill sets the bytes of its words and nothing else (R211). -/
theorem readByte_fillWords (m : Memory) (a : Nat) (w : Word) (n b : Nat) :
    readByte (fillWords m a w n) b =
      if a ≤ b ∧ b < a + 4 * n then some (byteOf w ((b - a) % 4)) else readByte m b := by
  induction n generalizing m with
  | zero =>
    have : ¬ (a ≤ b ∧ b < a + 4 * 0) := by omega
    simp only [fillWords, if_neg this]
  | succ n ih =>
    simp only [fillWords, ih, readByte_writeWord]
    by_cases h : a ≤ b ∧ b < a + 4 * n
    · have h' : a ≤ b ∧ b < a + 4 * (n + 1) := by omega
      simp [h, h']
    · by_cases h4 : a + 4 * n ≤ b ∧ b < a + 4 * n + 4
      · have h' : a ≤ b ∧ b < a + 4 * (n + 1) := by omega
        have e : b - (a + 4 * n) = (b - a) % 4 := by omega
        simp only [if_neg h, if_pos h4, if_pos h', e]
      · have h' : ¬ (a ≤ b ∧ b < a + 4 * (n + 1)) := by omega
        simp only [if_neg h, if_neg h4, if_neg h']

theorem wf_fillWords {m : Memory} (h : m.wf) (a : Nat) (w : Word) (n : Nat) : Memory.wf (fillWords m a w n) := by
  induction n generalizing m with
  | zero => exact h
  | succ n ih => exact ih (wf_writeWord h _ _)

theorem mem_fillWords {m : Memory} {a : Nat} {w : Word} {n : Nat} {c : Host.Cell} (h : c ∈ fillWords m a w n) :
    (a ≤ c.1 ∧ c.1 < a + 4 * n) ∨ c ∈ m := by
  induction n generalizing m with
  | zero => exact Or.inr h
  | succ n ih =>
    rcases ih h with h | h
    · left; omega
    · rcases mem_writeWord h with h | h
      · left; omega
      · exact Or.inr h

/-- Every word of a filled range reads as the fill (R211). -/
theorem readWord_fillWords (m : Memory) (a : Nat) (w : Word) (n i : Nat) (h : i < n) :
    readWord (fillWords m a w n) (a + 4 * i) = some w := by
  have e0 : a ≤ a + 4 * i ∧ a + 4 * i < a + 4 * n := by omega
  have e1 : a ≤ a + 4 * i + 1 ∧ a + 4 * i + 1 < a + 4 * n := by omega
  have e2 : a ≤ a + 4 * i + 2 ∧ a + 4 * i + 2 < a + 4 * n := by omega
  have e3 : a ≤ a + 4 * i + 3 ∧ a + 4 * i + 3 < a + 4 * n := by omega
  have f0 : (a + 4 * i - a) % 4 = 0 := by omega
  have f1 : (a + 4 * i + 1 - a) % 4 = 1 := by omega
  have f2 : (a + 4 * i + 2 - a) % 4 = 2 := by omega
  have f3 : (a + 4 * i + 3 - a) % 4 = 3 := by omega
  simp only [readWord, readByte_fillWords, if_pos e0, if_pos e1, if_pos e2, if_pos e3, f0, f1, f2, f3, leWord_byteOf]

/-! ## The erased page -/

/-- An erase sets the bytes of its page and nothing else (R211). -/
theorem readByte_erasePage (m : Memory) (a : Nat) (w : Word) (b : Nat) :
    readByte (erasePage m a w) b =
      if a ≤ b ∧ b < a + 1024 then some (byteOf w ((b - a) % 4)) else readByte m b := by
  unfold erasePage
  exact readByte_fillWords m a w Config.pageWords b

/-- Every word of an erased page reads as erased (R211). -/
theorem readWord_erasePage (m : Memory) (a : Nat) (w : Word) (i : Nat) (h : i < 256) :
    readWord (erasePage m a w) (a + 4 * i) = some w := by
  unfold erasePage
  exact readWord_fillWords m a w Config.pageWords i h

/-- An erase keeps the canonical form. -/
theorem wf_erasePage {m : Memory} (h : m.wf) (a : Nat) (w : Word) : Memory.wf (erasePage m a w) := by
  unfold erasePage
  exact wf_fillWords h a w Config.pageWords

/-- An erase lists its page's addresses and those listed before. -/
theorem mem_erasePage {m : Memory} {a : Nat} {w : Word} {c : Host.Cell} (h : c ∈ erasePage m a w) :
    (a ≤ c.1 ∧ c.1 < a + 1024) ∨ c ∈ m := by
  unfold erasePage at h
  exact mem_fillWords h

end Sys2Proof.Laws
end

