-- ==== Sys2Proof/Laws/State.lean ====
section
/-! SUPPORT. What each named update of the state does to each field: one lemma per field per update. -/

namespace Sys2Proof.Laws

open Sys2Proof Sys2Proof.Machine

/-! ## `State.goto` -/

@[simp] theorem goto_st (s : State) (c : BitVec 5) : (s.goto c).st = c := rfl
@[simp] theorem goto_dly (s : State) (c : BitVec 5) : (s.goto c).dly = s.dly := rfl
@[simp] theorem goto_rxByte (s : State) (c : BitVec 5) : (s.goto c).rxByte = s.rxByte := rfl
@[simp] theorem goto_cursor (s : State) (c : BitVec 5) : (s.goto c).cursor = s.cursor := rfl
@[simp] theorem goto_remaining (s : State) (c : BitVec 5) : (s.goto c).remaining = s.remaining := rfl
@[simp] theorem goto_budget (s : State) (c : BitVec 5) : (s.goto c).budget = s.budget := rfl
@[simp] theorem goto_crcLocal (s : State) (c : BitVec 5) : (s.goto c).crcLocal = s.crcLocal := rfl
@[simp] theorem goto_widx (s : State) (c : BitVec 5) : (s.goto c).widx = s.widx := rfl
@[simp] theorem goto_entry (s : State) (c : BitVec 5) : (s.goto c).entry = s.entry := rfl
@[simp] theorem goto_pageBuf (s : State) (c : BitVec 5) : (s.goto c).pageBuf = s.pageBuf := rfl
@[simp] theorem goto_csumSlot (s : State) (c : BitVec 5) : (s.goto c).csumSlot = s.csumSlot := rfl
@[simp] theorem goto_txLog (s : State) (c : BitVec 5) : (s.goto c).txLog = s.txLog := rfl
@[simp] theorem goto_line (s : State) (c : BitVec 5) : (s.goto c).line = s.line := rfl
@[simp] theorem goto_rxEn (s : State) (c : BitVec 5) : (s.goto c).rxEn = s.rxEn := rfl
@[simp] theorem goto_txEn (s : State) (c : BitVec 5) : (s.goto c).txEn = s.txEn := rfl
@[simp] theorem goto_sdArmed (s : State) (c : BitVec 5) : (s.goto c).sdArmed = s.sdArmed := rfl
@[simp] theorem goto_sdDest (s : State) (c : BitVec 5) : (s.goto c).sdDest = s.sdDest := rfl
@[simp] theorem goto_sdLen (s : State) (c : BitVec 5) : (s.goto c).sdLen = s.sdLen := rfl
@[simp] theorem goto_sdCnt (s : State) (c : BitVec 5) : (s.goto c).sdCnt = s.sdCnt := rfl
@[simp] theorem goto_sdDone (s : State) (c : BitVec 5) : (s.goto c).sdDone = s.sdDone := rfl
@[simp] theorem goto_ckAcc (s : State) (c : BitVec 5) : (s.goto c).ckAcc = s.ckAcc := rfl
@[simp] theorem goto_nvLocked (s : State) (c : BitVec 5) : (s.goto c).nvLocked = s.nvLocked := rfl
@[simp] theorem goto_nvTiming (s : State) (c : BitVec 5) : (s.goto c).nvTiming = s.nvTiming := rfl
@[simp] theorem goto_nvMem (s : State) (c : BitVec 5) : (s.goto c).nvMem = s.nvMem := rfl
@[simp] theorem goto_vtbr (s : State) (c : BitVec 5) : (s.goto c).vtbr = s.vtbr := rfl
@[simp] theorem goto_handoff (s : State) (c : BitVec 5) : (s.goto c).handoff = s.handoff := rfl
@[simp] theorem goto_fault (s : State) (c : BitVec 5) : (s.goto c).fault = s.fault := rfl
@[simp] theorem goto_cfg (s : State) (c : BitVec 5) : (s.goto c).cfg = s.cfg := rfl
@[simp] theorem goto_txReady (s : State) (c : BitVec 5) : (s.goto c).txReady = s.txReady := rfl
@[simp] theorem goto_script (s : State) (c : BitVec 5) : (s.goto c).script = s.script := rfl
@[simp] theorem goto_turnCount (s : State) (c : BitVec 5) : (s.goto c).turnCount = s.turnCount := rfl
@[simp] theorem goto_draws (s : State) (c : BitVec 5) : (s.goto c).draws = s.draws := rfl

/-! ## `State.recordFault` -/

@[simp] theorem recordFault_st (s : State) (r : Fault) : (s.recordFault r).st = s.st := rfl
@[simp] theorem recordFault_dly (s : State) (r : Fault) : (s.recordFault r).dly = s.dly := rfl
@[simp] theorem recordFault_rxByte (s : State) (r : Fault) : (s.recordFault r).rxByte = s.rxByte := rfl
@[simp] theorem recordFault_cursor (s : State) (r : Fault) : (s.recordFault r).cursor = s.cursor := rfl
@[simp] theorem recordFault_remaining (s : State) (r : Fault) : (s.recordFault r).remaining = s.remaining := rfl
@[simp] theorem recordFault_budget (s : State) (r : Fault) : (s.recordFault r).budget = s.budget := rfl
@[simp] theorem recordFault_crcLocal (s : State) (r : Fault) : (s.recordFault r).crcLocal = s.crcLocal := rfl
@[simp] theorem recordFault_widx (s : State) (r : Fault) : (s.recordFault r).widx = s.widx := rfl
@[simp] theorem recordFault_entry (s : State) (r : Fault) : (s.recordFault r).entry = s.entry := rfl
@[simp] theorem recordFault_pageBuf (s : State) (r : Fault) : (s.recordFault r).pageBuf = s.pageBuf := rfl
@[simp] theorem recordFault_csumSlot (s : State) (r : Fault) : (s.recordFault r).csumSlot = s.csumSlot := rfl
@[simp] theorem recordFault_txLog (s : State) (r : Fault) : (s.recordFault r).txLog = s.txLog := rfl
@[simp] theorem recordFault_line (s : State) (r : Fault) : (s.recordFault r).line = s.line := rfl
@[simp] theorem recordFault_rxEn (s : State) (r : Fault) : (s.recordFault r).rxEn = s.rxEn := rfl
@[simp] theorem recordFault_txEn (s : State) (r : Fault) : (s.recordFault r).txEn = s.txEn := rfl
@[simp] theorem recordFault_sdArmed (s : State) (r : Fault) : (s.recordFault r).sdArmed = s.sdArmed := rfl
@[simp] theorem recordFault_sdDest (s : State) (r : Fault) : (s.recordFault r).sdDest = s.sdDest := rfl
@[simp] theorem recordFault_sdLen (s : State) (r : Fault) : (s.recordFault r).sdLen = s.sdLen := rfl
@[simp] theorem recordFault_sdCnt (s : State) (r : Fault) : (s.recordFault r).sdCnt = s.sdCnt := rfl
@[simp] theorem recordFault_sdDone (s : State) (r : Fault) : (s.recordFault r).sdDone = s.sdDone := rfl
@[simp] theorem recordFault_ckAcc (s : State) (r : Fault) : (s.recordFault r).ckAcc = s.ckAcc := rfl
@[simp] theorem recordFault_nvLocked (s : State) (r : Fault) : (s.recordFault r).nvLocked = s.nvLocked := rfl
@[simp] theorem recordFault_nvTiming (s : State) (r : Fault) : (s.recordFault r).nvTiming = s.nvTiming := rfl
@[simp] theorem recordFault_nvMem (s : State) (r : Fault) : (s.recordFault r).nvMem = s.nvMem := rfl
@[simp] theorem recordFault_vtbr (s : State) (r : Fault) : (s.recordFault r).vtbr = s.vtbr := rfl
@[simp] theorem recordFault_handoff (s : State) (r : Fault) : (s.recordFault r).handoff = s.handoff := rfl
@[simp] theorem recordFault_fault (s : State) (r : Fault) : (s.recordFault r).fault = some r := rfl
@[simp] theorem recordFault_cfg (s : State) (r : Fault) : (s.recordFault r).cfg = s.cfg := rfl
@[simp] theorem recordFault_txReady (s : State) (r : Fault) : (s.recordFault r).txReady = s.txReady := rfl
@[simp] theorem recordFault_script (s : State) (r : Fault) : (s.recordFault r).script = s.script := rfl
@[simp] theorem recordFault_turnCount (s : State) (r : Fault) : (s.recordFault r).turnCount = s.turnCount := rfl
@[simp] theorem recordFault_draws (s : State) (r : Fault) : (s.recordFault r).draws = s.draws := rfl

/-! ## `sdArm` -/

@[simp] theorem sdArm_st (s : State) (d : Dest) (n : Nat) : (sdArm d n s).st = s.st := rfl
@[simp] theorem sdArm_dly (s : State) (d : Dest) (n : Nat) : (sdArm d n s).dly = s.dly := rfl
@[simp] theorem sdArm_rxByte (s : State) (d : Dest) (n : Nat) : (sdArm d n s).rxByte = s.rxByte := rfl
@[simp] theorem sdArm_cursor (s : State) (d : Dest) (n : Nat) : (sdArm d n s).cursor = s.cursor := rfl
@[simp] theorem sdArm_remaining (s : State) (d : Dest) (n : Nat) : (sdArm d n s).remaining = s.remaining := rfl
@[simp] theorem sdArm_budget (s : State) (d : Dest) (n : Nat) : (sdArm d n s).budget = s.budget := rfl
@[simp] theorem sdArm_crcLocal (s : State) (d : Dest) (n : Nat) : (sdArm d n s).crcLocal = s.crcLocal := rfl
@[simp] theorem sdArm_widx (s : State) (d : Dest) (n : Nat) : (sdArm d n s).widx = s.widx := rfl
@[simp] theorem sdArm_entry (s : State) (d : Dest) (n : Nat) : (sdArm d n s).entry = s.entry := rfl
@[simp] theorem sdArm_pageBuf (s : State) (d : Dest) (n : Nat) : (sdArm d n s).pageBuf = s.pageBuf := rfl
@[simp] theorem sdArm_csumSlot (s : State) (d : Dest) (n : Nat) : (sdArm d n s).csumSlot = s.csumSlot := rfl
@[simp] theorem sdArm_txLog (s : State) (d : Dest) (n : Nat) : (sdArm d n s).txLog = s.txLog := rfl
@[simp] theorem sdArm_line (s : State) (d : Dest) (n : Nat) : (sdArm d n s).line = s.line := rfl
@[simp] theorem sdArm_rxEn (s : State) (d : Dest) (n : Nat) : (sdArm d n s).rxEn = s.rxEn := rfl
@[simp] theorem sdArm_txEn (s : State) (d : Dest) (n : Nat) : (sdArm d n s).txEn = s.txEn := rfl
@[simp] theorem sdArm_sdArmed (s : State) (d : Dest) (n : Nat) : (sdArm d n s).sdArmed = true := rfl
@[simp] theorem sdArm_sdDest (s : State) (d : Dest) (n : Nat) : (sdArm d n s).sdDest = d := rfl
@[simp] theorem sdArm_sdLen (s : State) (d : Dest) (n : Nat) : (sdArm d n s).sdLen = n := rfl
@[simp] theorem sdArm_sdCnt (s : State) (d : Dest) (n : Nat) : (sdArm d n s).sdCnt = 0 := rfl
@[simp] theorem sdArm_sdDone (s : State) (d : Dest) (n : Nat) : (sdArm d n s).sdDone = false := rfl
@[simp] theorem sdArm_ckAcc (s : State) (d : Dest) (n : Nat) : (sdArm d n s).ckAcc = s.ckAcc := rfl
@[simp] theorem sdArm_nvLocked (s : State) (d : Dest) (n : Nat) : (sdArm d n s).nvLocked = s.nvLocked := rfl
@[simp] theorem sdArm_nvTiming (s : State) (d : Dest) (n : Nat) : (sdArm d n s).nvTiming = s.nvTiming := rfl
@[simp] theorem sdArm_nvMem (s : State) (d : Dest) (n : Nat) : (sdArm d n s).nvMem = s.nvMem := rfl
@[simp] theorem sdArm_vtbr (s : State) (d : Dest) (n : Nat) : (sdArm d n s).vtbr = s.vtbr := rfl
@[simp] theorem sdArm_handoff (s : State) (d : Dest) (n : Nat) : (sdArm d n s).handoff = s.handoff := rfl
@[simp] theorem sdArm_fault (s : State) (d : Dest) (n : Nat) : (sdArm d n s).fault = s.fault := rfl
@[simp] theorem sdArm_cfg (s : State) (d : Dest) (n : Nat) : (sdArm d n s).cfg = s.cfg := rfl
@[simp] theorem sdArm_txReady (s : State) (d : Dest) (n : Nat) : (sdArm d n s).txReady = s.txReady := rfl
@[simp] theorem sdArm_script (s : State) (d : Dest) (n : Nat) : (sdArm d n s).script = s.script := rfl
@[simp] theorem sdArm_turnCount (s : State) (d : Dest) (n : Nat) : (sdArm d n s).turnCount = s.turnCount := rfl
@[simp] theorem sdArm_draws (s : State) (d : Dest) (n : Nat) : (sdArm d n s).draws = s.draws := rfl

/-! ## `armAndLoad` -/

@[simp] theorem armAndLoad_st (s : State) (d : Dest) : (armAndLoad d s).st = s.st := rfl
@[simp] theorem armAndLoad_dly (s : State) (d : Dest) : (armAndLoad d s).dly = s.dly := rfl
@[simp] theorem armAndLoad_rxByte (s : State) (d : Dest) : (armAndLoad d s).rxByte = s.rxByte := rfl
@[simp] theorem armAndLoad_cursor (s : State) (d : Dest) : (armAndLoad d s).cursor = s.cursor := rfl
@[simp] theorem armAndLoad_remaining (s : State) (d : Dest) : (armAndLoad d s).remaining = s.remaining := rfl
@[simp] theorem armAndLoad_budget (s : State) (d : Dest) : (armAndLoad d s).budget = s.cfg.val.timeoutInit := rfl
@[simp] theorem armAndLoad_crcLocal (s : State) (d : Dest) : (armAndLoad d s).crcLocal = s.crcLocal := rfl
@[simp] theorem armAndLoad_widx (s : State) (d : Dest) : (armAndLoad d s).widx = s.widx := rfl
@[simp] theorem armAndLoad_entry (s : State) (d : Dest) : (armAndLoad d s).entry = s.entry := rfl
@[simp] theorem armAndLoad_pageBuf (s : State) (d : Dest) : (armAndLoad d s).pageBuf = s.pageBuf := rfl
@[simp] theorem armAndLoad_csumSlot (s : State) (d : Dest) : (armAndLoad d s).csumSlot = s.csumSlot := rfl
@[simp] theorem armAndLoad_txLog (s : State) (d : Dest) : (armAndLoad d s).txLog = s.txLog := rfl
@[simp] theorem armAndLoad_line (s : State) (d : Dest) : (armAndLoad d s).line = s.line := rfl
@[simp] theorem armAndLoad_rxEn (s : State) (d : Dest) : (armAndLoad d s).rxEn = s.rxEn := rfl
@[simp] theorem armAndLoad_txEn (s : State) (d : Dest) : (armAndLoad d s).txEn = s.txEn := rfl
@[simp] theorem armAndLoad_sdArmed (s : State) (d : Dest) : (armAndLoad d s).sdArmed = true := rfl
@[simp] theorem armAndLoad_sdDest (s : State) (d : Dest) : (armAndLoad d s).sdDest = d := rfl
@[simp] theorem armAndLoad_sdLen (s : State) (d : Dest) : (armAndLoad d s).sdLen = d.size := rfl
@[simp] theorem armAndLoad_sdCnt (s : State) (d : Dest) : (armAndLoad d s).sdCnt = 0 := rfl
@[simp] theorem armAndLoad_sdDone (s : State) (d : Dest) : (armAndLoad d s).sdDone = false := rfl
@[simp] theorem armAndLoad_ckAcc (s : State) (d : Dest) : (armAndLoad d s).ckAcc = s.ckAcc := rfl
@[simp] theorem armAndLoad_nvLocked (s : State) (d : Dest) : (armAndLoad d s).nvLocked = s.nvLocked := rfl
@[simp] theorem armAndLoad_nvTiming (s : State) (d : Dest) : (armAndLoad d s).nvTiming = s.nvTiming := rfl
@[simp] theorem armAndLoad_nvMem (s : State) (d : Dest) : (armAndLoad d s).nvMem = s.nvMem := rfl
@[simp] theorem armAndLoad_vtbr (s : State) (d : Dest) : (armAndLoad d s).vtbr = s.vtbr := rfl
@[simp] theorem armAndLoad_handoff (s : State) (d : Dest) : (armAndLoad d s).handoff = s.handoff := rfl
@[simp] theorem armAndLoad_fault (s : State) (d : Dest) : (armAndLoad d s).fault = s.fault := rfl
@[simp] theorem armAndLoad_cfg (s : State) (d : Dest) : (armAndLoad d s).cfg = s.cfg := rfl
@[simp] theorem armAndLoad_txReady (s : State) (d : Dest) : (armAndLoad d s).txReady = s.txReady := rfl
@[simp] theorem armAndLoad_script (s : State) (d : Dest) : (armAndLoad d s).script = s.script := rfl
@[simp] theorem armAndLoad_turnCount (s : State) (d : Dest) : (armAndLoad d s).turnCount = s.turnCount := rfl
@[simp] theorem armAndLoad_draws (s : State) (d : Dest) : (armAndLoad d s).draws = s.draws := rfl

/-! ## `trDisable` -/

@[simp] theorem trDisable_st (s : State) : (trDisable s).st = s.st := rfl
@[simp] theorem trDisable_dly (s : State) : (trDisable s).dly = s.dly := rfl
@[simp] theorem trDisable_rxByte (s : State) : (trDisable s).rxByte = s.rxByte := rfl
@[simp] theorem trDisable_cursor (s : State) : (trDisable s).cursor = s.cursor := rfl
@[simp] theorem trDisable_remaining (s : State) : (trDisable s).remaining = s.remaining := rfl
@[simp] theorem trDisable_budget (s : State) : (trDisable s).budget = s.budget := rfl
@[simp] theorem trDisable_crcLocal (s : State) : (trDisable s).crcLocal = s.crcLocal := rfl
@[simp] theorem trDisable_widx (s : State) : (trDisable s).widx = s.widx := rfl
@[simp] theorem trDisable_entry (s : State) : (trDisable s).entry = s.entry := rfl
@[simp] theorem trDisable_pageBuf (s : State) : (trDisable s).pageBuf = s.pageBuf := rfl
@[simp] theorem trDisable_csumSlot (s : State) : (trDisable s).csumSlot = s.csumSlot := rfl
@[simp] theorem trDisable_txLog (s : State) : (trDisable s).txLog = s.txLog := rfl
@[simp] theorem trDisable_line (s : State) : (trDisable s).line = s.line := rfl
@[simp] theorem trDisable_rxEn (s : State) : (trDisable s).rxEn = false := rfl
@[simp] theorem trDisable_txEn (s : State) : (trDisable s).txEn = false := rfl
@[simp] theorem trDisable_sdArmed (s : State) : (trDisable s).sdArmed = s.sdArmed := rfl
@[simp] theorem trDisable_sdDest (s : State) : (trDisable s).sdDest = s.sdDest := rfl
@[simp] theorem trDisable_sdLen (s : State) : (trDisable s).sdLen = s.sdLen := rfl
@[simp] theorem trDisable_sdCnt (s : State) : (trDisable s).sdCnt = s.sdCnt := rfl
@[simp] theorem trDisable_sdDone (s : State) : (trDisable s).sdDone = s.sdDone := rfl
@[simp] theorem trDisable_ckAcc (s : State) : (trDisable s).ckAcc = s.ckAcc := rfl
@[simp] theorem trDisable_nvLocked (s : State) : (trDisable s).nvLocked = s.nvLocked := rfl
@[simp] theorem trDisable_nvTiming (s : State) : (trDisable s).nvTiming = s.nvTiming := rfl
@[simp] theorem trDisable_nvMem (s : State) : (trDisable s).nvMem = s.nvMem := rfl
@[simp] theorem trDisable_vtbr (s : State) : (trDisable s).vtbr = s.vtbr := rfl
@[simp] theorem trDisable_handoff (s : State) : (trDisable s).handoff = s.handoff := rfl
@[simp] theorem trDisable_fault (s : State) : (trDisable s).fault = s.fault := rfl
@[simp] theorem trDisable_cfg (s : State) : (trDisable s).cfg = s.cfg := rfl
@[simp] theorem trDisable_txReady (s : State) : (trDisable s).txReady = s.txReady := rfl
@[simp] theorem trDisable_script (s : State) : (trDisable s).script = s.script := rfl
@[simp] theorem trDisable_turnCount (s : State) : (trDisable s).turnCount = s.turnCount := rfl
@[simp] theorem trDisable_draws (s : State) : (trDisable s).draws = s.draws := rfl

/-! ## `ckReset` -/

@[simp] theorem ckReset_st (s : State) : (ckReset s).st = s.st := rfl
@[simp] theorem ckReset_dly (s : State) : (ckReset s).dly = s.dly := rfl
@[simp] theorem ckReset_rxByte (s : State) : (ckReset s).rxByte = s.rxByte := rfl
@[simp] theorem ckReset_cursor (s : State) : (ckReset s).cursor = s.cursor := rfl
@[simp] theorem ckReset_remaining (s : State) : (ckReset s).remaining = s.remaining := rfl
@[simp] theorem ckReset_budget (s : State) : (ckReset s).budget = s.budget := rfl
@[simp] theorem ckReset_crcLocal (s : State) : (ckReset s).crcLocal = s.crcLocal := rfl
@[simp] theorem ckReset_widx (s : State) : (ckReset s).widx = s.widx := rfl
@[simp] theorem ckReset_entry (s : State) : (ckReset s).entry = s.entry := rfl
@[simp] theorem ckReset_pageBuf (s : State) : (ckReset s).pageBuf = s.pageBuf := rfl
@[simp] theorem ckReset_csumSlot (s : State) : (ckReset s).csumSlot = s.csumSlot := rfl
@[simp] theorem ckReset_txLog (s : State) : (ckReset s).txLog = s.txLog := rfl
@[simp] theorem ckReset_line (s : State) : (ckReset s).line = s.line := rfl
@[simp] theorem ckReset_rxEn (s : State) : (ckReset s).rxEn = s.rxEn := rfl
@[simp] theorem ckReset_txEn (s : State) : (ckReset s).txEn = s.txEn := rfl
@[simp] theorem ckReset_sdArmed (s : State) : (ckReset s).sdArmed = s.sdArmed := rfl
@[simp] theorem ckReset_sdDest (s : State) : (ckReset s).sdDest = s.sdDest := rfl
@[simp] theorem ckReset_sdLen (s : State) : (ckReset s).sdLen = s.sdLen := rfl
@[simp] theorem ckReset_sdCnt (s : State) : (ckReset s).sdCnt = s.sdCnt := rfl
@[simp] theorem ckReset_sdDone (s : State) : (ckReset s).sdDone = s.sdDone := rfl
@[simp] theorem ckReset_ckAcc (s : State) : (ckReset s).ckAcc = ckInit s.cfg.val.checksum := rfl
@[simp] theorem ckReset_nvLocked (s : State) : (ckReset s).nvLocked = s.nvLocked := rfl
@[simp] theorem ckReset_nvTiming (s : State) : (ckReset s).nvTiming = s.nvTiming := rfl
@[simp] theorem ckReset_nvMem (s : State) : (ckReset s).nvMem = s.nvMem := rfl
@[simp] theorem ckReset_vtbr (s : State) : (ckReset s).vtbr = s.vtbr := rfl
@[simp] theorem ckReset_handoff (s : State) : (ckReset s).handoff = s.handoff := rfl
@[simp] theorem ckReset_fault (s : State) : (ckReset s).fault = s.fault := rfl
@[simp] theorem ckReset_cfg (s : State) : (ckReset s).cfg = s.cfg := rfl
@[simp] theorem ckReset_txReady (s : State) : (ckReset s).txReady = s.txReady := rfl
@[simp] theorem ckReset_script (s : State) : (ckReset s).script = s.script := rfl
@[simp] theorem ckReset_turnCount (s : State) : (ckReset s).turnCount = s.turnCount := rfl
@[simp] theorem ckReset_draws (s : State) : (ckReset s).draws = s.draws := rfl

/-! ## `ckBlock` -/

@[simp] theorem ckBlock_st (s : State) : (ckBlock s).st = s.st := rfl
@[simp] theorem ckBlock_dly (s : State) : (ckBlock s).dly = s.dly := rfl
@[simp] theorem ckBlock_rxByte (s : State) : (ckBlock s).rxByte = s.rxByte := rfl
@[simp] theorem ckBlock_cursor (s : State) : (ckBlock s).cursor = s.cursor := rfl
@[simp] theorem ckBlock_remaining (s : State) : (ckBlock s).remaining = s.remaining := rfl
@[simp] theorem ckBlock_budget (s : State) : (ckBlock s).budget = s.budget := rfl
@[simp] theorem ckBlock_crcLocal (s : State) : (ckBlock s).crcLocal = ckResult s := rfl
@[simp] theorem ckBlock_widx (s : State) : (ckBlock s).widx = s.widx := rfl
@[simp] theorem ckBlock_entry (s : State) : (ckBlock s).entry = s.entry := rfl
@[simp] theorem ckBlock_pageBuf (s : State) : (ckBlock s).pageBuf = s.pageBuf := rfl
@[simp] theorem ckBlock_csumSlot (s : State) : (ckBlock s).csumSlot = s.csumSlot := rfl
@[simp] theorem ckBlock_txLog (s : State) : (ckBlock s).txLog = s.txLog := rfl
@[simp] theorem ckBlock_line (s : State) : (ckBlock s).line = s.line := rfl
@[simp] theorem ckBlock_rxEn (s : State) : (ckBlock s).rxEn = s.rxEn := rfl
@[simp] theorem ckBlock_txEn (s : State) : (ckBlock s).txEn = s.txEn := rfl
@[simp] theorem ckBlock_sdArmed (s : State) : (ckBlock s).sdArmed = s.sdArmed := rfl
@[simp] theorem ckBlock_sdDest (s : State) : (ckBlock s).sdDest = s.sdDest := rfl
@[simp] theorem ckBlock_sdLen (s : State) : (ckBlock s).sdLen = s.sdLen := rfl
@[simp] theorem ckBlock_sdCnt (s : State) : (ckBlock s).sdCnt = s.sdCnt := rfl
@[simp] theorem ckBlock_sdDone (s : State) : (ckBlock s).sdDone = s.sdDone := rfl
@[simp] theorem ckBlock_ckAcc (s : State) : (ckBlock s).ckAcc = ckResult s := rfl
@[simp] theorem ckBlock_nvLocked (s : State) : (ckBlock s).nvLocked = s.nvLocked := rfl
@[simp] theorem ckBlock_nvTiming (s : State) : (ckBlock s).nvTiming = s.nvTiming := rfl
@[simp] theorem ckBlock_nvMem (s : State) : (ckBlock s).nvMem = s.nvMem := rfl
@[simp] theorem ckBlock_vtbr (s : State) : (ckBlock s).vtbr = s.vtbr := rfl
@[simp] theorem ckBlock_handoff (s : State) : (ckBlock s).handoff = s.handoff := rfl
@[simp] theorem ckBlock_fault (s : State) : (ckBlock s).fault = s.fault := rfl
@[simp] theorem ckBlock_cfg (s : State) : (ckBlock s).cfg = s.cfg := rfl
@[simp] theorem ckBlock_txReady (s : State) : (ckBlock s).txReady = s.txReady := rfl
@[simp] theorem ckBlock_script (s : State) : (ckBlock s).script = s.script := rfl
@[simp] theorem ckBlock_turnCount (s : State) : (ckBlock s).turnCount = s.turnCount := rfl
@[simp] theorem ckBlock_draws (s : State) : (ckBlock s).draws = s.draws := rfl

/-! ## `nvUnlock` -/

@[simp] theorem nvUnlock_st (s : State) : (nvUnlock s).st = s.st := rfl
@[simp] theorem nvUnlock_dly (s : State) : (nvUnlock s).dly = s.dly := rfl
@[simp] theorem nvUnlock_rxByte (s : State) : (nvUnlock s).rxByte = s.rxByte := rfl
@[simp] theorem nvUnlock_cursor (s : State) : (nvUnlock s).cursor = s.cursor := rfl
@[simp] theorem nvUnlock_remaining (s : State) : (nvUnlock s).remaining = s.remaining := rfl
@[simp] theorem nvUnlock_budget (s : State) : (nvUnlock s).budget = s.budget := rfl
@[simp] theorem nvUnlock_crcLocal (s : State) : (nvUnlock s).crcLocal = s.crcLocal := rfl
@[simp] theorem nvUnlock_widx (s : State) : (nvUnlock s).widx = s.widx := rfl
@[simp] theorem nvUnlock_entry (s : State) : (nvUnlock s).entry = s.entry := rfl
@[simp] theorem nvUnlock_pageBuf (s : State) : (nvUnlock s).pageBuf = s.pageBuf := rfl
@[simp] theorem nvUnlock_csumSlot (s : State) : (nvUnlock s).csumSlot = s.csumSlot := rfl
@[simp] theorem nvUnlock_txLog (s : State) : (nvUnlock s).txLog = s.txLog := rfl
@[simp] theorem nvUnlock_line (s : State) : (nvUnlock s).line = s.line := rfl
@[simp] theorem nvUnlock_rxEn (s : State) : (nvUnlock s).rxEn = s.rxEn := rfl
@[simp] theorem nvUnlock_txEn (s : State) : (nvUnlock s).txEn = s.txEn := rfl
@[simp] theorem nvUnlock_sdArmed (s : State) : (nvUnlock s).sdArmed = s.sdArmed := rfl
@[simp] theorem nvUnlock_sdDest (s : State) : (nvUnlock s).sdDest = s.sdDest := rfl
@[simp] theorem nvUnlock_sdLen (s : State) : (nvUnlock s).sdLen = s.sdLen := rfl
@[simp] theorem nvUnlock_sdCnt (s : State) : (nvUnlock s).sdCnt = s.sdCnt := rfl
@[simp] theorem nvUnlock_sdDone (s : State) : (nvUnlock s).sdDone = s.sdDone := rfl
@[simp] theorem nvUnlock_ckAcc (s : State) : (nvUnlock s).ckAcc = s.ckAcc := rfl
@[simp] theorem nvUnlock_nvLocked (s : State) : (nvUnlock s).nvLocked = false := rfl
@[simp] theorem nvUnlock_nvTiming (s : State) : (nvUnlock s).nvTiming = s.nvTiming := rfl
@[simp] theorem nvUnlock_nvMem (s : State) : (nvUnlock s).nvMem = s.nvMem := rfl
@[simp] theorem nvUnlock_vtbr (s : State) : (nvUnlock s).vtbr = s.vtbr := rfl
@[simp] theorem nvUnlock_handoff (s : State) : (nvUnlock s).handoff = s.handoff := rfl
@[simp] theorem nvUnlock_fault (s : State) : (nvUnlock s).fault = s.fault := rfl
@[simp] theorem nvUnlock_cfg (s : State) : (nvUnlock s).cfg = s.cfg := rfl
@[simp] theorem nvUnlock_txReady (s : State) : (nvUnlock s).txReady = s.txReady := rfl
@[simp] theorem nvUnlock_script (s : State) : (nvUnlock s).script = s.script := rfl
@[simp] theorem nvUnlock_turnCount (s : State) : (nvUnlock s).turnCount = s.turnCount := rfl
@[simp] theorem nvUnlock_draws (s : State) : (nvUnlock s).draws = s.draws := rfl

/-! ## `nvLock` -/

@[simp] theorem nvLock_st (s : State) : (nvLock s).st = s.st := rfl
@[simp] theorem nvLock_dly (s : State) : (nvLock s).dly = s.dly := rfl
@[simp] theorem nvLock_rxByte (s : State) : (nvLock s).rxByte = s.rxByte := rfl
@[simp] theorem nvLock_cursor (s : State) : (nvLock s).cursor = s.cursor := rfl
@[simp] theorem nvLock_remaining (s : State) : (nvLock s).remaining = s.remaining := rfl
@[simp] theorem nvLock_budget (s : State) : (nvLock s).budget = s.budget := rfl
@[simp] theorem nvLock_crcLocal (s : State) : (nvLock s).crcLocal = s.crcLocal := rfl
@[simp] theorem nvLock_widx (s : State) : (nvLock s).widx = s.widx := rfl
@[simp] theorem nvLock_entry (s : State) : (nvLock s).entry = s.entry := rfl
@[simp] theorem nvLock_pageBuf (s : State) : (nvLock s).pageBuf = s.pageBuf := rfl
@[simp] theorem nvLock_csumSlot (s : State) : (nvLock s).csumSlot = s.csumSlot := rfl
@[simp] theorem nvLock_txLog (s : State) : (nvLock s).txLog = s.txLog := rfl
@[simp] theorem nvLock_line (s : State) : (nvLock s).line = s.line := rfl
@[simp] theorem nvLock_rxEn (s : State) : (nvLock s).rxEn = s.rxEn := rfl
@[simp] theorem nvLock_txEn (s : State) : (nvLock s).txEn = s.txEn := rfl
@[simp] theorem nvLock_sdArmed (s : State) : (nvLock s).sdArmed = s.sdArmed := rfl
@[simp] theorem nvLock_sdDest (s : State) : (nvLock s).sdDest = s.sdDest := rfl
@[simp] theorem nvLock_sdLen (s : State) : (nvLock s).sdLen = s.sdLen := rfl
@[simp] theorem nvLock_sdCnt (s : State) : (nvLock s).sdCnt = s.sdCnt := rfl
@[simp] theorem nvLock_sdDone (s : State) : (nvLock s).sdDone = s.sdDone := rfl
@[simp] theorem nvLock_ckAcc (s : State) : (nvLock s).ckAcc = s.ckAcc := rfl
@[simp] theorem nvLock_nvLocked (s : State) : (nvLock s).nvLocked = true := rfl
@[simp] theorem nvLock_nvTiming (s : State) : (nvLock s).nvTiming = s.nvTiming := rfl
@[simp] theorem nvLock_nvMem (s : State) : (nvLock s).nvMem = s.nvMem := rfl
@[simp] theorem nvLock_vtbr (s : State) : (nvLock s).vtbr = s.vtbr := rfl
@[simp] theorem nvLock_handoff (s : State) : (nvLock s).handoff = s.handoff := rfl
@[simp] theorem nvLock_fault (s : State) : (nvLock s).fault = s.fault := rfl
@[simp] theorem nvLock_cfg (s : State) : (nvLock s).cfg = s.cfg := rfl
@[simp] theorem nvLock_txReady (s : State) : (nvLock s).txReady = s.txReady := rfl
@[simp] theorem nvLock_script (s : State) : (nvLock s).script = s.script := rfl
@[simp] theorem nvLock_turnCount (s : State) : (nvLock s).turnCount = s.turnCount := rfl
@[simp] theorem nvLock_draws (s : State) : (nvLock s).draws = s.draws := rfl

/-! ## `nvSetTiming` -/

@[simp] theorem nvSetTiming_st (s : State) (v : Word) : (nvSetTiming v s).st = s.st := rfl
@[simp] theorem nvSetTiming_dly (s : State) (v : Word) : (nvSetTiming v s).dly = s.dly := rfl
@[simp] theorem nvSetTiming_rxByte (s : State) (v : Word) : (nvSetTiming v s).rxByte = s.rxByte := rfl
@[simp] theorem nvSetTiming_cursor (s : State) (v : Word) : (nvSetTiming v s).cursor = s.cursor := rfl
@[simp] theorem nvSetTiming_remaining (s : State) (v : Word) : (nvSetTiming v s).remaining = s.remaining := rfl
@[simp] theorem nvSetTiming_budget (s : State) (v : Word) : (nvSetTiming v s).budget = s.budget := rfl
@[simp] theorem nvSetTiming_crcLocal (s : State) (v : Word) : (nvSetTiming v s).crcLocal = s.crcLocal := rfl
@[simp] theorem nvSetTiming_widx (s : State) (v : Word) : (nvSetTiming v s).widx = s.widx := rfl
@[simp] theorem nvSetTiming_entry (s : State) (v : Word) : (nvSetTiming v s).entry = s.entry := rfl
@[simp] theorem nvSetTiming_pageBuf (s : State) (v : Word) : (nvSetTiming v s).pageBuf = s.pageBuf := rfl
@[simp] theorem nvSetTiming_csumSlot (s : State) (v : Word) : (nvSetTiming v s).csumSlot = s.csumSlot := rfl
@[simp] theorem nvSetTiming_txLog (s : State) (v : Word) : (nvSetTiming v s).txLog = s.txLog := rfl
@[simp] theorem nvSetTiming_line (s : State) (v : Word) : (nvSetTiming v s).line = s.line := rfl
@[simp] theorem nvSetTiming_rxEn (s : State) (v : Word) : (nvSetTiming v s).rxEn = s.rxEn := rfl
@[simp] theorem nvSetTiming_txEn (s : State) (v : Word) : (nvSetTiming v s).txEn = s.txEn := rfl
@[simp] theorem nvSetTiming_sdArmed (s : State) (v : Word) : (nvSetTiming v s).sdArmed = s.sdArmed := rfl
@[simp] theorem nvSetTiming_sdDest (s : State) (v : Word) : (nvSetTiming v s).sdDest = s.sdDest := rfl
@[simp] theorem nvSetTiming_sdLen (s : State) (v : Word) : (nvSetTiming v s).sdLen = s.sdLen := rfl
@[simp] theorem nvSetTiming_sdCnt (s : State) (v : Word) : (nvSetTiming v s).sdCnt = s.sdCnt := rfl
@[simp] theorem nvSetTiming_sdDone (s : State) (v : Word) : (nvSetTiming v s).sdDone = s.sdDone := rfl
@[simp] theorem nvSetTiming_ckAcc (s : State) (v : Word) : (nvSetTiming v s).ckAcc = s.ckAcc := rfl
@[simp] theorem nvSetTiming_nvLocked (s : State) (v : Word) : (nvSetTiming v s).nvLocked = s.nvLocked := rfl
@[simp] theorem nvSetTiming_nvTiming (s : State) (v : Word) : (nvSetTiming v s).nvTiming = some v := rfl
@[simp] theorem nvSetTiming_nvMem (s : State) (v : Word) : (nvSetTiming v s).nvMem = s.nvMem := rfl
@[simp] theorem nvSetTiming_vtbr (s : State) (v : Word) : (nvSetTiming v s).vtbr = s.vtbr := rfl
@[simp] theorem nvSetTiming_handoff (s : State) (v : Word) : (nvSetTiming v s).handoff = s.handoff := rfl
@[simp] theorem nvSetTiming_fault (s : State) (v : Word) : (nvSetTiming v s).fault = s.fault := rfl
@[simp] theorem nvSetTiming_cfg (s : State) (v : Word) : (nvSetTiming v s).cfg = s.cfg := rfl
@[simp] theorem nvSetTiming_txReady (s : State) (v : Word) : (nvSetTiming v s).txReady = s.txReady := rfl
@[simp] theorem nvSetTiming_script (s : State) (v : Word) : (nvSetTiming v s).script = s.script := rfl
@[simp] theorem nvSetTiming_turnCount (s : State) (v : Word) : (nvSetTiming v s).turnCount = s.turnCount := rfl
@[simp] theorem nvSetTiming_draws (s : State) (v : Word) : (nvSetTiming v s).draws = s.draws := rfl

/-! ## `sysSetVtbr` -/

@[simp] theorem sysSetVtbr_st (s : State) (a : Word) : (sysSetVtbr a s).st = s.st := rfl
@[simp] theorem sysSetVtbr_dly (s : State) (a : Word) : (sysSetVtbr a s).dly = s.dly := rfl
@[simp] theorem sysSetVtbr_rxByte (s : State) (a : Word) : (sysSetVtbr a s).rxByte = s.rxByte := rfl
@[simp] theorem sysSetVtbr_cursor (s : State) (a : Word) : (sysSetVtbr a s).cursor = s.cursor := rfl
@[simp] theorem sysSetVtbr_remaining (s : State) (a : Word) : (sysSetVtbr a s).remaining = s.remaining := rfl
@[simp] theorem sysSetVtbr_budget (s : State) (a : Word) : (sysSetVtbr a s).budget = s.budget := rfl
@[simp] theorem sysSetVtbr_crcLocal (s : State) (a : Word) : (sysSetVtbr a s).crcLocal = s.crcLocal := rfl
@[simp] theorem sysSetVtbr_widx (s : State) (a : Word) : (sysSetVtbr a s).widx = s.widx := rfl
@[simp] theorem sysSetVtbr_entry (s : State) (a : Word) : (sysSetVtbr a s).entry = s.entry := rfl
@[simp] theorem sysSetVtbr_pageBuf (s : State) (a : Word) : (sysSetVtbr a s).pageBuf = s.pageBuf := rfl
@[simp] theorem sysSetVtbr_csumSlot (s : State) (a : Word) : (sysSetVtbr a s).csumSlot = s.csumSlot := rfl
@[simp] theorem sysSetVtbr_txLog (s : State) (a : Word) : (sysSetVtbr a s).txLog = s.txLog := rfl
@[simp] theorem sysSetVtbr_line (s : State) (a : Word) : (sysSetVtbr a s).line = s.line := rfl
@[simp] theorem sysSetVtbr_rxEn (s : State) (a : Word) : (sysSetVtbr a s).rxEn = s.rxEn := rfl
@[simp] theorem sysSetVtbr_txEn (s : State) (a : Word) : (sysSetVtbr a s).txEn = s.txEn := rfl
@[simp] theorem sysSetVtbr_sdArmed (s : State) (a : Word) : (sysSetVtbr a s).sdArmed = s.sdArmed := rfl
@[simp] theorem sysSetVtbr_sdDest (s : State) (a : Word) : (sysSetVtbr a s).sdDest = s.sdDest := rfl
@[simp] theorem sysSetVtbr_sdLen (s : State) (a : Word) : (sysSetVtbr a s).sdLen = s.sdLen := rfl
@[simp] theorem sysSetVtbr_sdCnt (s : State) (a : Word) : (sysSetVtbr a s).sdCnt = s.sdCnt := rfl
@[simp] theorem sysSetVtbr_sdDone (s : State) (a : Word) : (sysSetVtbr a s).sdDone = s.sdDone := rfl
@[simp] theorem sysSetVtbr_ckAcc (s : State) (a : Word) : (sysSetVtbr a s).ckAcc = s.ckAcc := rfl
@[simp] theorem sysSetVtbr_nvLocked (s : State) (a : Word) : (sysSetVtbr a s).nvLocked = s.nvLocked := rfl
@[simp] theorem sysSetVtbr_nvTiming (s : State) (a : Word) : (sysSetVtbr a s).nvTiming = s.nvTiming := rfl
@[simp] theorem sysSetVtbr_nvMem (s : State) (a : Word) : (sysSetVtbr a s).nvMem = s.nvMem := rfl
@[simp] theorem sysSetVtbr_vtbr (s : State) (a : Word) : (sysSetVtbr a s).vtbr = a := rfl
@[simp] theorem sysSetVtbr_handoff (s : State) (a : Word) : (sysSetVtbr a s).handoff = s.handoff := rfl
@[simp] theorem sysSetVtbr_fault (s : State) (a : Word) : (sysSetVtbr a s).fault = s.fault := rfl
@[simp] theorem sysSetVtbr_cfg (s : State) (a : Word) : (sysSetVtbr a s).cfg = s.cfg := rfl
@[simp] theorem sysSetVtbr_txReady (s : State) (a : Word) : (sysSetVtbr a s).txReady = s.txReady := rfl
@[simp] theorem sysSetVtbr_script (s : State) (a : Word) : (sysSetVtbr a s).script = s.script := rfl
@[simp] theorem sysSetVtbr_turnCount (s : State) (a : Word) : (sysSetVtbr a s).turnCount = s.turnCount := rfl
@[simp] theorem sysSetVtbr_draws (s : State) (a : Word) : (sysSetVtbr a s).draws = s.draws := rfl

/-! ## `sysJump` -/

@[simp] theorem sysJump_st (s : State) (e : Word) : (sysJump e s).st = Code.handoff := rfl
@[simp] theorem sysJump_dly (s : State) (e : Word) : (sysJump e s).dly = s.dly := rfl
@[simp] theorem sysJump_rxByte (s : State) (e : Word) : (sysJump e s).rxByte = s.rxByte := rfl
@[simp] theorem sysJump_cursor (s : State) (e : Word) : (sysJump e s).cursor = s.cursor := rfl
@[simp] theorem sysJump_remaining (s : State) (e : Word) : (sysJump e s).remaining = s.remaining := rfl
@[simp] theorem sysJump_budget (s : State) (e : Word) : (sysJump e s).budget = s.budget := rfl
@[simp] theorem sysJump_crcLocal (s : State) (e : Word) : (sysJump e s).crcLocal = s.crcLocal := rfl
@[simp] theorem sysJump_widx (s : State) (e : Word) : (sysJump e s).widx = s.widx := rfl
@[simp] theorem sysJump_entry (s : State) (e : Word) : (sysJump e s).entry = s.entry := rfl
@[simp] theorem sysJump_pageBuf (s : State) (e : Word) : (sysJump e s).pageBuf = s.pageBuf := rfl
@[simp] theorem sysJump_csumSlot (s : State) (e : Word) : (sysJump e s).csumSlot = s.csumSlot := rfl
@[simp] theorem sysJump_txLog (s : State) (e : Word) : (sysJump e s).txLog = s.txLog := rfl
@[simp] theorem sysJump_line (s : State) (e : Word) : (sysJump e s).line = s.line := rfl
@[simp] theorem sysJump_rxEn (s : State) (e : Word) : (sysJump e s).rxEn = s.rxEn := rfl
@[simp] theorem sysJump_txEn (s : State) (e : Word) : (sysJump e s).txEn = s.txEn := rfl
@[simp] theorem sysJump_sdArmed (s : State) (e : Word) : (sysJump e s).sdArmed = s.sdArmed := rfl
@[simp] theorem sysJump_sdDest (s : State) (e : Word) : (sysJump e s).sdDest = s.sdDest := rfl
@[simp] theorem sysJump_sdLen (s : State) (e : Word) : (sysJump e s).sdLen = s.sdLen := rfl
@[simp] theorem sysJump_sdCnt (s : State) (e : Word) : (sysJump e s).sdCnt = s.sdCnt := rfl
@[simp] theorem sysJump_sdDone (s : State) (e : Word) : (sysJump e s).sdDone = s.sdDone := rfl
@[simp] theorem sysJump_ckAcc (s : State) (e : Word) : (sysJump e s).ckAcc = s.ckAcc := rfl
@[simp] theorem sysJump_nvLocked (s : State) (e : Word) : (sysJump e s).nvLocked = s.nvLocked := rfl
@[simp] theorem sysJump_nvTiming (s : State) (e : Word) : (sysJump e s).nvTiming = s.nvTiming := rfl
@[simp] theorem sysJump_nvMem (s : State) (e : Word) : (sysJump e s).nvMem = s.nvMem := rfl
@[simp] theorem sysJump_vtbr (s : State) (e : Word) : (sysJump e s).vtbr = s.vtbr := rfl
@[simp] theorem sysJump_handoff (s : State) (e : Word) : (sysJump e s).handoff = some e := rfl
@[simp] theorem sysJump_fault (s : State) (e : Word) : (sysJump e s).fault = s.fault := rfl
@[simp] theorem sysJump_cfg (s : State) (e : Word) : (sysJump e s).cfg = s.cfg := rfl
@[simp] theorem sysJump_txReady (s : State) (e : Word) : (sysJump e s).txReady = s.txReady := rfl
@[simp] theorem sysJump_script (s : State) (e : Word) : (sysJump e s).script = s.script := rfl
@[simp] theorem sysJump_turnCount (s : State) (e : Word) : (sysJump e s).turnCount = s.turnCount := rfl
@[simp] theorem sysJump_draws (s : State) (e : Word) : (sysJump e s).draws = s.draws := rfl

/-! ## `hostAppend` -/

@[simp] theorem hostAppend_st (s : State) (bs : List Byte) : (hostAppend bs s).st = s.st := rfl
@[simp] theorem hostAppend_dly (s : State) (bs : List Byte) : (hostAppend bs s).dly = s.dly := rfl
@[simp] theorem hostAppend_rxByte (s : State) (bs : List Byte) : (hostAppend bs s).rxByte = s.rxByte := rfl
@[simp] theorem hostAppend_cursor (s : State) (bs : List Byte) : (hostAppend bs s).cursor = s.cursor := rfl
@[simp] theorem hostAppend_remaining (s : State) (bs : List Byte) : (hostAppend bs s).remaining = s.remaining := rfl
@[simp] theorem hostAppend_budget (s : State) (bs : List Byte) : (hostAppend bs s).budget = s.budget := rfl
@[simp] theorem hostAppend_crcLocal (s : State) (bs : List Byte) : (hostAppend bs s).crcLocal = s.crcLocal := rfl
@[simp] theorem hostAppend_widx (s : State) (bs : List Byte) : (hostAppend bs s).widx = s.widx := rfl
@[simp] theorem hostAppend_entry (s : State) (bs : List Byte) : (hostAppend bs s).entry = s.entry := rfl
@[simp] theorem hostAppend_pageBuf (s : State) (bs : List Byte) : (hostAppend bs s).pageBuf = s.pageBuf := rfl
@[simp] theorem hostAppend_csumSlot (s : State) (bs : List Byte) : (hostAppend bs s).csumSlot = s.csumSlot := rfl
@[simp] theorem hostAppend_txLog (s : State) (bs : List Byte) : (hostAppend bs s).txLog = s.txLog := rfl
@[simp] theorem hostAppend_line (s : State) (bs : List Byte) : (hostAppend bs s).line = s.line ++ bs := rfl
@[simp] theorem hostAppend_rxEn (s : State) (bs : List Byte) : (hostAppend bs s).rxEn = s.rxEn := rfl
@[simp] theorem hostAppend_txEn (s : State) (bs : List Byte) : (hostAppend bs s).txEn = s.txEn := rfl
@[simp] theorem hostAppend_sdArmed (s : State) (bs : List Byte) : (hostAppend bs s).sdArmed = s.sdArmed := rfl
@[simp] theorem hostAppend_sdDest (s : State) (bs : List Byte) : (hostAppend bs s).sdDest = s.sdDest := rfl
@[simp] theorem hostAppend_sdLen (s : State) (bs : List Byte) : (hostAppend bs s).sdLen = s.sdLen := rfl
@[simp] theorem hostAppend_sdCnt (s : State) (bs : List Byte) : (hostAppend bs s).sdCnt = s.sdCnt := rfl
@[simp] theorem hostAppend_sdDone (s : State) (bs : List Byte) : (hostAppend bs s).sdDone = s.sdDone := rfl
@[simp] theorem hostAppend_ckAcc (s : State) (bs : List Byte) : (hostAppend bs s).ckAcc = s.ckAcc := rfl
@[simp] theorem hostAppend_nvLocked (s : State) (bs : List Byte) : (hostAppend bs s).nvLocked = s.nvLocked := rfl
@[simp] theorem hostAppend_nvTiming (s : State) (bs : List Byte) : (hostAppend bs s).nvTiming = s.nvTiming := rfl
@[simp] theorem hostAppend_nvMem (s : State) (bs : List Byte) : (hostAppend bs s).nvMem = s.nvMem := rfl
@[simp] theorem hostAppend_vtbr (s : State) (bs : List Byte) : (hostAppend bs s).vtbr = s.vtbr := rfl
@[simp] theorem hostAppend_handoff (s : State) (bs : List Byte) : (hostAppend bs s).handoff = s.handoff := rfl
@[simp] theorem hostAppend_fault (s : State) (bs : List Byte) : (hostAppend bs s).fault = s.fault := rfl
@[simp] theorem hostAppend_cfg (s : State) (bs : List Byte) : (hostAppend bs s).cfg = s.cfg := rfl
@[simp] theorem hostAppend_txReady (s : State) (bs : List Byte) : (hostAppend bs s).txReady = s.txReady := rfl
@[simp] theorem hostAppend_script (s : State) (bs : List Byte) : (hostAppend bs s).script = s.script := rfl
@[simp] theorem hostAppend_turnCount (s : State) (bs : List Byte) : (hostAppend bs s).turnCount = s.turnCount := rfl
@[simp] theorem hostAppend_draws (s : State) (bs : List Byte) : (hostAppend bs s).draws = s.draws := rfl

/-! ## `transportTurn` -/

@[simp] theorem transportTurn_st (s : State) (r : Bool) : (transportTurn r s).st = s.st := rfl
@[simp] theorem transportTurn_dly (s : State) (r : Bool) : (transportTurn r s).dly = s.dly := rfl
@[simp] theorem transportTurn_rxByte (s : State) (r : Bool) : (transportTurn r s).rxByte = s.rxByte := rfl
@[simp] theorem transportTurn_cursor (s : State) (r : Bool) : (transportTurn r s).cursor = s.cursor := rfl
@[simp] theorem transportTurn_remaining (s : State) (r : Bool) : (transportTurn r s).remaining = s.remaining := rfl
@[simp] theorem transportTurn_budget (s : State) (r : Bool) : (transportTurn r s).budget = s.budget := rfl
@[simp] theorem transportTurn_crcLocal (s : State) (r : Bool) : (transportTurn r s).crcLocal = s.crcLocal := rfl
@[simp] theorem transportTurn_widx (s : State) (r : Bool) : (transportTurn r s).widx = s.widx := rfl
@[simp] theorem transportTurn_entry (s : State) (r : Bool) : (transportTurn r s).entry = s.entry := rfl
@[simp] theorem transportTurn_pageBuf (s : State) (r : Bool) : (transportTurn r s).pageBuf = s.pageBuf := rfl
@[simp] theorem transportTurn_csumSlot (s : State) (r : Bool) : (transportTurn r s).csumSlot = s.csumSlot := rfl
@[simp] theorem transportTurn_txLog (s : State) (r : Bool) : (transportTurn r s).txLog = s.txLog := rfl
@[simp] theorem transportTurn_line (s : State) (r : Bool) : (transportTurn r s).line = s.line := rfl
@[simp] theorem transportTurn_rxEn (s : State) (r : Bool) : (transportTurn r s).rxEn = s.rxEn := rfl
@[simp] theorem transportTurn_txEn (s : State) (r : Bool) : (transportTurn r s).txEn = s.txEn := rfl
@[simp] theorem transportTurn_sdArmed (s : State) (r : Bool) : (transportTurn r s).sdArmed = s.sdArmed := rfl
@[simp] theorem transportTurn_sdDest (s : State) (r : Bool) : (transportTurn r s).sdDest = s.sdDest := rfl
@[simp] theorem transportTurn_sdLen (s : State) (r : Bool) : (transportTurn r s).sdLen = s.sdLen := rfl
@[simp] theorem transportTurn_sdCnt (s : State) (r : Bool) : (transportTurn r s).sdCnt = s.sdCnt := rfl
@[simp] theorem transportTurn_sdDone (s : State) (r : Bool) : (transportTurn r s).sdDone = s.sdDone := rfl
@[simp] theorem transportTurn_ckAcc (s : State) (r : Bool) : (transportTurn r s).ckAcc = s.ckAcc := rfl
@[simp] theorem transportTurn_nvLocked (s : State) (r : Bool) : (transportTurn r s).nvLocked = s.nvLocked := rfl
@[simp] theorem transportTurn_nvTiming (s : State) (r : Bool) : (transportTurn r s).nvTiming = s.nvTiming := rfl
@[simp] theorem transportTurn_nvMem (s : State) (r : Bool) : (transportTurn r s).nvMem = s.nvMem := rfl
@[simp] theorem transportTurn_vtbr (s : State) (r : Bool) : (transportTurn r s).vtbr = s.vtbr := rfl
@[simp] theorem transportTurn_handoff (s : State) (r : Bool) : (transportTurn r s).handoff = s.handoff := rfl
@[simp] theorem transportTurn_fault (s : State) (r : Bool) : (transportTurn r s).fault = s.fault := rfl
@[simp] theorem transportTurn_cfg (s : State) (r : Bool) : (transportTurn r s).cfg = s.cfg := rfl
@[simp] theorem transportTurn_txReady (s : State) (r : Bool) : (transportTurn r s).txReady = r := rfl
@[simp] theorem transportTurn_script (s : State) (r : Bool) : (transportTurn r s).script = s.script := rfl
@[simp] theorem transportTurn_turnCount (s : State) (r : Bool) : (transportTurn r s).turnCount = s.turnCount := rfl
@[simp] theorem transportTurn_draws (s : State) (r : Bool) : (transportTurn r s).draws = s.draws := rfl

/-! ## `driverTake` -/

@[simp] theorem driverTake_st (b : Byte) (rest : List Byte) (s : State) :
    (driverTake b rest s).st = s.st := by
  unfold driverTake storeStreamByte
  cases s.sdDest <;> dsimp only <;> split <;> rfl
@[simp] theorem driverTake_dly (b : Byte) (rest : List Byte) (s : State) :
    (driverTake b rest s).dly = s.dly := by
  unfold driverTake storeStreamByte
  cases s.sdDest <;> dsimp only <;> split <;> rfl
@[simp] theorem driverTake_rxByte (b : Byte) (rest : List Byte) (s : State) :
    (driverTake b rest s).rxByte = s.rxByte := by
  unfold driverTake storeStreamByte
  cases s.sdDest <;> dsimp only <;> split <;> rfl
@[simp] theorem driverTake_cursor (b : Byte) (rest : List Byte) (s : State) :
    (driverTake b rest s).cursor = s.cursor := by
  unfold driverTake storeStreamByte
  cases s.sdDest <;> dsimp only <;> split <;> rfl
@[simp] theorem driverTake_remaining (b : Byte) (rest : List Byte) (s : State) :
    (driverTake b rest s).remaining = s.remaining := by
  unfold driverTake storeStreamByte
  cases s.sdDest <;> dsimp only <;> split <;> rfl
@[simp] theorem driverTake_budget (b : Byte) (rest : List Byte) (s : State) :
    (driverTake b rest s).budget = s.budget := by
  unfold driverTake storeStreamByte
  cases s.sdDest <;> dsimp only <;> split <;> rfl
@[simp] theorem driverTake_crcLocal (b : Byte) (rest : List Byte) (s : State) :
    (driverTake b rest s).crcLocal = s.crcLocal := by
  unfold driverTake storeStreamByte
  cases s.sdDest <;> dsimp only <;> split <;> rfl
@[simp] theorem driverTake_widx (b : Byte) (rest : List Byte) (s : State) :
    (driverTake b rest s).widx = s.widx := by
  unfold driverTake storeStreamByte
  cases s.sdDest <;> dsimp only <;> split <;> rfl
@[simp] theorem driverTake_entry (b : Byte) (rest : List Byte) (s : State) :
    (driverTake b rest s).entry = s.entry := by
  unfold driverTake storeStreamByte
  cases s.sdDest <;> dsimp only <;> split <;> rfl
@[simp] theorem driverTake_txLog (b : Byte) (rest : List Byte) (s : State) :
    (driverTake b rest s).txLog = s.txLog := by
  unfold driverTake storeStreamByte
  cases s.sdDest <;> dsimp only <;> split <;> rfl
@[simp] theorem driverTake_rxEn (b : Byte) (rest : List Byte) (s : State) :
    (driverTake b rest s).rxEn = s.rxEn := by
  unfold driverTake storeStreamByte
  cases s.sdDest <;> dsimp only <;> split <;> rfl
@[simp] theorem driverTake_txEn (b : Byte) (rest : List Byte) (s : State) :
    (driverTake b rest s).txEn = s.txEn := by
  unfold driverTake storeStreamByte
  cases s.sdDest <;> dsimp only <;> split <;> rfl
@[simp] theorem driverTake_sdDest (b : Byte) (rest : List Byte) (s : State) :
    (driverTake b rest s).sdDest = s.sdDest := by
  unfold driverTake storeStreamByte
  cases s.sdDest <;> dsimp only <;> split <;> rfl
@[simp] theorem driverTake_sdLen (b : Byte) (rest : List Byte) (s : State) :
    (driverTake b rest s).sdLen = s.sdLen := by
  unfold driverTake storeStreamByte
  cases s.sdDest <;> dsimp only <;> split <;> rfl
@[simp] theorem driverTake_ckAcc (b : Byte) (rest : List Byte) (s : State) :
    (driverTake b rest s).ckAcc = s.ckAcc := by
  unfold driverTake storeStreamByte
  cases s.sdDest <;> dsimp only <;> split <;> rfl
@[simp] theorem driverTake_nvLocked (b : Byte) (rest : List Byte) (s : State) :
    (driverTake b rest s).nvLocked = s.nvLocked := by
  unfold driverTake storeStreamByte
  cases s.sdDest <;> dsimp only <;> split <;> rfl
@[simp] theorem driverTake_nvTiming (b : Byte) (rest : List Byte) (s : State) :
    (driverTake b rest s).nvTiming = s.nvTiming := by
  unfold driverTake storeStreamByte
  cases s.sdDest <;> dsimp only <;> split <;> rfl
@[simp] theorem driverTake_nvMem (b : Byte) (rest : List Byte) (s : State) :
    (driverTake b rest s).nvMem = s.nvMem := by
  unfold driverTake storeStreamByte
  cases s.sdDest <;> dsimp only <;> split <;> rfl
@[simp] theorem driverTake_vtbr (b : Byte) (rest : List Byte) (s : State) :
    (driverTake b rest s).vtbr = s.vtbr := by
  unfold driverTake storeStreamByte
  cases s.sdDest <;> dsimp only <;> split <;> rfl
@[simp] theorem driverTake_handoff (b : Byte) (rest : List Byte) (s : State) :
    (driverTake b rest s).handoff = s.handoff := by
  unfold driverTake storeStreamByte
  cases s.sdDest <;> dsimp only <;> split <;> rfl
@[simp] theorem driverTake_fault (b : Byte) (rest : List Byte) (s : State) :
    (driverTake b rest s).fault = s.fault := by
  unfold driverTake storeStreamByte
  cases s.sdDest <;> dsimp only <;> split <;> rfl
@[simp] theorem driverTake_cfg (b : Byte) (rest : List Byte) (s : State) :
    (driverTake b rest s).cfg = s.cfg := by
  unfold driverTake storeStreamByte
  cases s.sdDest <;> dsimp only <;> split <;> rfl
@[simp] theorem driverTake_txReady (b : Byte) (rest : List Byte) (s : State) :
    (driverTake b rest s).txReady = s.txReady := by
  unfold driverTake storeStreamByte
  cases s.sdDest <;> dsimp only <;> split <;> rfl
@[simp] theorem driverTake_script (b : Byte) (rest : List Byte) (s : State) :
    (driverTake b rest s).script = s.script := by
  unfold driverTake storeStreamByte
  cases s.sdDest <;> dsimp only <;> split <;> rfl
@[simp] theorem driverTake_turnCount (b : Byte) (rest : List Byte) (s : State) :
    (driverTake b rest s).turnCount = s.turnCount := by
  unfold driverTake storeStreamByte
  cases s.sdDest <;> dsimp only <;> split <;> rfl
@[simp] theorem driverTake_draws (b : Byte) (rest : List Byte) (s : State) :
    (driverTake b rest s).draws = s.draws := by
  unfold driverTake storeStreamByte
  cases s.sdDest <;> dsimp only <;> split <;> rfl
@[simp] theorem driverTake_line (b : Byte) (rest : List Byte) (s : State) :
    (driverTake b rest s).line = rest := by
  unfold driverTake storeStreamByte
  cases s.sdDest <;> dsimp only <;> split <;> rfl
@[simp] theorem driverTake_sdCnt (b : Byte) (rest : List Byte) (s : State) :
    (driverTake b rest s).sdCnt = s.sdCnt + 1 := by
  unfold driverTake storeStreamByte
  cases s.sdDest <;> dsimp only <;> split <;> rfl
@[simp] theorem driverTake_sdDone (b : Byte) (rest : List Byte) (s : State) :
    (driverTake b rest s).sdDone = if s.sdCnt + 1 = s.sdLen then true else s.sdDone := by
  unfold driverTake storeStreamByte
  cases s.sdDest <;> dsimp only <;> split <;> rfl
@[simp] theorem driverTake_sdArmed (b : Byte) (rest : List Byte) (s : State) :
    (driverTake b rest s).sdArmed = if s.sdCnt + 1 = s.sdLen then false else s.sdArmed := by
  unfold driverTake storeStreamByte
  cases s.sdDest <;> dsimp only <;> split <;> rfl
/-- The page buffer takes the byte if the transfer is for it (R203). -/
theorem driverTake_pageBuf (b : Byte) (rest : List Byte) (s : State) :
    (driverTake b rest s).pageBuf = if s.sdDest = .pageBuf then setPageByte s.pageBuf s.sdCnt b else s.pageBuf := by
  unfold driverTake storeStreamByte
  cases s.sdDest <;> dsimp only <;> split <;> rfl
/-- The checksum slot takes the byte if the transfer is for it (R203). -/
theorem driverTake_csumSlot (b : Byte) (rest : List Byte) (s : State) :
    (driverTake b rest s).csumSlot = if s.sdDest = .csumSlot then setByteOf s.csumSlot s.sdCnt b else s.csumSlot := by
  unfold driverTake storeStreamByte
  cases s.sdDest <;> dsimp only <;> split <;> rfl

/-! ## The byte sizes of the two destinations (R20, R21) -/

@[simp] theorem size_pageBuf : Dest.pageBuf.size = 1024 := rfl
@[simp] theorem size_csumSlot : Dest.csumSlot.size = 4 := rfl

end Sys2Proof.Laws
end

