-- ==== Sys2Proof/Laws/Ops.lean ====
section
/-! SUPPORT. What each shared operation can do, said once: later proofs cite these and do not unfold. -/

namespace Sys2Proof.Laws

open Sys2Proof Sys2Proof.Machine

/-! ## Finishing a transaction -/

@[simp] theorem finish_done {α : Type} (a : α) (u s : State) (k : α → State → State) :
    (Txn.done a u).finish s k = .next (k a u) := rfl

@[simp] theorem finish_waits {α : Type} (s : State) (k : α → State → State) :
    (Txn.waits : Txn α).finish s k = .next s := rfl

@[simp] theorem finish_faults {α : Type} (r : Fault) (u s : State) (k : α → State → State) :
    (Txn.faults r u : Txn α).finish s k = .next (u.recordFault r) := rfl

/-- The three ways a step that issues a transaction can end. -/
theorem finish_next {α : Type} {t : Txn α} {s s' : State} {k : α → State → State} (h : t.finish s k = .next s') :
    (∃ a u, t = .done a u ∧ s' = k a u) ∨ (t = .waits ∧ s' = s) ∨
      (∃ r u, t = .faults r u ∧ s' = u.recordFault r) := by
  cases t with
  | done a u => exact .inl ⟨a, u, rfl, by simpa [eq_comm] using h⟩
  | waits => exact .inr (.inl ⟨rfl, by simpa [eq_comm] using h⟩)
  | faults r u => exact .inr (.inr ⟨r, u, rfl, by simpa [eq_comm] using h⟩)

/-! ## Transport -/

/-- `TX.SEND` (R192, R193). -/
theorem txSend_cases (b : Byte) (s : State) :
    (s.txEn = false ∧ txSend b s = .faults .transportDisabled s) ∨
    (s.txEn = true ∧ s.txReady = false ∧ txSend b s = .waits) ∨
    (s.txEn = true ∧ s.txReady = true ∧ txSend b s = .done () { s with txLog := s.txLog ++ [b] }) := by
  cases he : s.txEn <;> cases hr : s.txReady <;> simp [txSend, he, hr]

/-- `RX.RECV` (R193, R194, R196). -/
theorem rxRecv_cases (s : State) :
    (s.rxEn = false ∧ rxRecv s = .faults .transportDisabled s) ∨
    (s.rxEn = true ∧ (s.sdArmed = true ∨ s.line = []) ∧ rxRecv s = .waits) ∨
    (∃ b rest, s.rxEn = true ∧ s.sdArmed = false ∧ s.line = b :: rest ∧
      rxRecv s = .done b { s with line := rest }) := by
  cases he : s.rxEn <;> cases ha : s.sdArmed <;> cases hl : s.line <;> simp [rxRecv, he, ha, hl]

/-! ## Storage commands -/

/-- `NV.ERASE_PAGE` (R48, R210 to R212). -/
theorem nvErasePage_cases (a : Word) (s : State) :
    (a.toNat % 1024 ≠ 0 ∧ nvErasePage a s = .faults .parameterConstraint s) ∨
    (a.toNat % 1024 = 0 ∧ s.nvLocked = true ∧ nvErasePage a s = .faults .storageLocked s) ∨
    (a.toNat % 1024 = 0 ∧ s.nvLocked = false ∧ s.cfg.val.flashEnd.toNat < a.toNat + 1024 ∧
      nvErasePage a s = .faults .storageOutOfRange s) ∨
    (a.toNat % 1024 = 0 ∧ s.nvLocked = false ∧ a.toNat + 1024 ≤ s.cfg.val.flashEnd.toNat ∧
      nvErasePage a s = .done () { s with nvMem := erasePage s.nvMem a.toNat s.cfg.val.erased }) := by
  unfold nvErasePage
  by_cases h1 : a.toNat % 1024 = 0
  · cases h2 : s.nvLocked
    · by_cases h3 : s.cfg.val.flashEnd.toNat < a.toNat + 1024
      · simp [h1, h3]
      · simp [h1, h3, Nat.not_lt.1 h3]
    · simp [h1]
  · simp [h1]

/-- `NV.PROGRAM_WORD` (R48, R210, R212, R213). -/
theorem nvProgramWord_cases (a d : Word) (s : State) :
    (a.toNat % 4 ≠ 0 ∧ nvProgramWord a d s = .faults .parameterConstraint s) ∨
    (a.toNat % 4 = 0 ∧ s.nvLocked = true ∧ nvProgramWord a d s = .faults .storageLocked s) ∨
    (a.toNat % 4 = 0 ∧ s.nvLocked = false ∧ s.cfg.val.flashEnd.toNat < a.toNat + 4 ∧
      nvProgramWord a d s = .faults .storageOutOfRange s) ∨
    (a.toNat % 4 = 0 ∧ s.nvLocked = false ∧ a.toNat + 4 ≤ s.cfg.val.flashEnd.toNat ∧
      readWord s.nvMem a.toNat ≠ some s.cfg.val.erased ∧
      nvProgramWord a d s = .faults .programNotErased { s with nvMem := forget s.nvMem a.toNat 4 }) ∨
    (a.toNat % 4 = 0 ∧ s.nvLocked = false ∧ a.toNat + 4 ≤ s.cfg.val.flashEnd.toNat ∧
      readWord s.nvMem a.toNat = some s.cfg.val.erased ∧
      nvProgramWord a d s = .done () { s with nvMem := writeWord s.nvMem a.toNat d }) := by
  unfold nvProgramWord
  by_cases h1 : a.toNat % 4 = 0
  · cases h2 : s.nvLocked
    · by_cases h3 : s.cfg.val.flashEnd.toNat < a.toNat + 4
      · simp [h1, h3]
      · by_cases h4 : readWord s.nvMem a.toNat = some s.cfg.val.erased
        · simp [h1, h3, h4, Nat.not_lt.1 h3]
        · simp [h1, h3, h4, Nat.not_lt.1 h3]
    · simp [h1]
  · simp [h1]

/-- `NV.READ32` (R48, R212, R215). -/
theorem nvRead32_cases (a : Word) (s : State) :
    (a.toNat % 4 ≠ 0 ∧ nvRead32 a s = .faults .parameterConstraint s) ∨
    (a.toNat % 4 = 0 ∧ s.cfg.val.flashEnd.toNat < a.toNat + 4 ∧ nvRead32 a s = .faults .storageOutOfRange s) ∨
    (∃ w, a.toNat % 4 = 0 ∧ a.toNat + 4 ≤ s.cfg.val.flashEnd.toNat ∧ readWord s.nvMem a.toNat = some w ∧
      nvRead32 a s = .done w s) ∨
    (a.toNat % 4 = 0 ∧ a.toNat + 4 ≤ s.cfg.val.flashEnd.toNat ∧ readWord s.nvMem a.toNat = none ∧
      nvRead32 a s = .done (Config.freeWord s.draws) { s with draws := s.draws + 1 }) := by
  unfold nvRead32
  by_cases h1 : a.toNat % 4 = 0
  · by_cases h3 : s.cfg.val.flashEnd.toNat < a.toNat + 4
    · simp [h1, h3]
    · cases h4 : readWord s.nvMem a.toNat <;> simp [h1, h3, Nat.not_lt.1 h3]
  · simp [h1]

/-! ## The settling delay, the driver, the drop -/

/-- One iteration of a delay (R101, R172). -/
theorem settle_cases (here next : BitVec 5) (s : State) :
    (0 < s.dly ∧ settle here next s = { s with dly := s.dly - 1, st := here }) ∨
    (s.dly = 0 ∧ settle here next s = s.goto next) := by
  unfold settle
  by_cases h : 0 < s.dly
  · simp [h]
  · simp [Nat.eq_zero_of_not_pos h]

/-- The driver's turn (R203, R204). -/
theorem driverTurn_cases (s : State) :
    ((s.sdArmed = false ∨ s.rxEn = false ∨ s.line = []) ∧ driverTurn s = .next s) ∨
    (∃ b rest, s.sdArmed = true ∧ s.rxEn = true ∧ s.line = b :: rest ∧
      ((s.sdCnt < s.sdDest.size ∧ driverTurn s = .next (driverTake b rest s)) ∨
       (¬ s.sdCnt < s.sdDest.size ∧ driverTurn s = .refused (.driverOutsideDestination s.sdCnt)))) := by
  cases ha : s.sdArmed
  · simp [driverTurn, ha]
  · cases hr : s.rxEn
    · simp [driverTurn, ha, hr]
    · cases hl : s.line with
      | nil => simp [driverTurn, ha, hr, hl]
      | cons b rest =>
        right
        refine ⟨b, rest, rfl, rfl, rfl, ?_⟩
        by_cases h : s.sdCnt < s.sdDest.size
        · exact .inl ⟨h, by simp [driverTurn, ha, hr, hl, h]⟩
        · exact .inr ⟨h, by rw [driverTurn]; simp only [ha, hr, hl, Bool.and_self, if_true, if_neg h]⟩

/-- The drop turn (R197). -/
theorem dropTurn_cases (s : State) :
    (unsolicited s = true ∧ dropTurn s = { s with line := s.line.tail }) ∨
    (unsolicited s = false ∧ dropTurn s = s) := by
  cases h : unsolicited s <;> simp [dropTurn, h]

/-! ## Counters and addresses -/

/-- The decrement of a budget that is not 0 (R16). -/
theorem budgetLess_of_pos {s : State} (h : 0 < s.budget) : budgetLess s = s.budget - 1 := by
  have : s.budget ≠ 0 := by omega
  simp [budgetLess, this]

/-- A register of `BUDGET_W` bits still holds the budget after the decrement, from 0 too (R9, R16). -/
theorem budgetLess_lt {s : State} (h : s.budget < 2 ^ s.cfg.val.budgetW) : budgetLess s < 2 ^ s.cfg.val.budgetW := by
  have := Nat.two_pow_pos s.cfg.val.budgetW
  unfold budgetLess
  split <;> omega

/-- A register of `BUDGET_W` bits holds the three values the counters are loaded with (R7, R12). -/
theorem loads_fit (p : Params) : p.val.timeoutInit < 2 ^ p.val.budgetW ∧ p.val.settleA < 2 ^ p.val.budgetW ∧
    p.val.settleF < 2 ^ p.val.budgetW := by
  have := Nat.two_pow_pos p.val.budgetW
  obtain ⟨_, _, _, _, _, _, h1, h2, h3⟩ := p.ok
  omega

/-- The data operand of `S_PROGRAM` is the buffer's word (R152), and no draw is made for it. -/
theorem programData_of_lt {s : State} (h : s.widx.toNat < 256) :
    programData s = s.pageBuf[s.widx.toNat] ∧ programDraws s = s.draws := by
  simp [programData, programDraws, h]

/-- An index that names no word of the buffer gives a draw (log 16). -/
theorem programData_of_ge {s : State} (h : 256 ≤ s.widx.toNat) :
    programData s = Config.freeWord s.draws ∧ programDraws s = s.draws + 1 := by
  simp [programData, programDraws, Nat.not_lt.2 h]

/-- The last word is word 255 (R152). -/
theorem lastWord_iff (s : State) : lastWord s = true ↔ s.widx.toNat = 255 := by
  have := s.widx.isLt
  simp only [lastWord, beq_iff_eq, Config.pageWords, BitVec.toNat_add]
  simp
  omega

/-- The program address does not wrap inside the address space (R48). -/
theorem programAddr_toNat {s : State} (h : s.widx.toNat < 256) (hc : s.cursor.toNat + 1024 ≤ 2 ^ 32) :
    (programAddr s).toNat = s.cursor.toNat + 4 * s.widx.toNat := by
  simp [programAddr]
  omega

/-- The entry vector lies in storage, word-aligned, under every valuation (R7, R174). -/
theorem entryVectorAddr_toNat (s : State) : (entryVectorAddr s).toNat = s.cfg.val.appBase.toNat + 4 := by
  obtain ⟨_, h, _⟩ := s.cfg.ok
  simp [entryVectorAddr]
  omega

/-! ## A step -/

@[simp] theorem unlessFaulted_none {s : State} (h : s.fault = none) (o : Host.Outcome State Fault Refusal) :
    unlessFaulted s o = o := by simp [unlessFaulted, h]

@[simp] theorem unlessFaulted_some {s : State} {r : Fault} (h : s.fault = some r)
    (o : Host.Outcome State Fault Refusal) : unlessFaulted s o = .fault r := by simp [unlessFaulted, h]

/-- The next event uses up the head of the script, or counts a free turn, and changes nothing else. -/
theorem nextEvent_cases (s : State) :
    (∃ e rest, s.script = e :: rest ∧ nextEvent s = (e, { s with script := rest })) ∨
    (s.script = [] ∧ nextEvent s = (.turn (Config.freeTurn s.turnCount), { s with turnCount := s.turnCount + 1 })) := by
  cases h : s.script with
  | nil => exact .inr ⟨rfl, by simp [nextEvent, h]⟩
  | cons e rest => exact .inl ⟨e, rest, rfl, by simp [nextEvent, h]⟩

/-- A step with an event in the script performs that event. -/
theorem step_cons {s : State} {e : Event} {rest : List Event} (h : s.script = e :: rest) :
    step s = runEvent e { s with script := rest } := by simp [step, nextEvent, h]

/-- A step with an empty script performs the free schedule's turn (R31). -/
theorem step_nil {s : State} (h : s.script = []) :
    step s = runTurn (Config.freeTurn s.turnCount) { s with turnCount := s.turnCount + 1 } := by
  simp [step, nextEvent, h, runEvent]

/-- What a step of a machine whose script lists turns only can be: some turn, at the same state but for the
bookkeeping of the schedule. -/
theorem step_turn {s : State} (h : ∀ e ∈ s.script, ∃ t, e = Event.turn t) :
    ∃ t sc n, (∀ e ∈ sc, ∃ t, e = Event.turn t) ∧
      step s = runTurn t { s with script := sc, turnCount := n } := by
  cases hs : s.script with
  | nil => exact ⟨_, [], _, by simp, by simpa [hs] using step_nil hs⟩
  | cons e rest =>
    obtain ⟨t, rfl⟩ := h e (by simp [hs])
    exact ⟨t, rest, s.turnCount, fun e he => h e (by simp [hs, he]), by simpa [runEvent] using step_cons hs⟩

/-- No meaning ends in a fault: a model fault is recorded in the state, and the next step ends in it (R29, log 5). -/
theorem exec_ne_fault (i : Instr) (s : State) (r : Fault) : exec i s ≠ .fault r := by
  have key : ∀ {α : Type} (t : Txn α) (k : α → State → State), t.finish s k ≠ .fault r := by
    intro α t k
    cases t <;> simp
  cases i <;> first
    | exact key _ _
    | (intro h; cases h)

end Sys2Proof.Laws
end

