-- ==== Sys2Proof/Laws/PerInstr.lean ====
section
/-! SUPPORT. Per-instruction laws: the decoder reads back what the encoder writes (`30_encoding.md` R71, R72, R76, R79),
one lemma for each constructor. -/

namespace Sys2Proof.Laws

open Sys2Proof

/-- The family's statement: a well-formed instruction is what its space's decoder reads from its bytes. -/
def RoundTrip.Statement (i : Instr) : Prop := i.wellFormed = true → decode i.space (encode i) = .ok i

/-- The operand field of an arm is read back (R79). -/
theorem armOperand_armField (dest : Dest) (len : BitVec 11) :
    armOperand [(armField dest len).extractLsb' 0 8, (armField dest len).extractLsb' 8 8] = .ok (.sdArm dest len) := by
  have bits : ∀ i, (armField dest len).getLsbD i =
      if i < 1 then (dest == .csumSlot) else if i - 1 < 11 then len.getLsbD (i - 1) else false := by
    intro i
    cases dest <;>
    · show BitVec.getLsbD (w := 4 + 11 + 1) (0#4 ++ len ++ _) i = _
      simp only [BitVec.getLsbD_append]
      split
      · have : i = 0 := by omega
        subst this
        rfl
      · split <;> simp
  have low : ((armField dest len).extractLsb' 0 8).getLsbD 0 = (dest == .csumSlot) := by
    simp only [BitVec.getLsbD_extractLsb', bits]
    simp
  have top : ((armField dest len).extractLsb' 8 8).extractLsb' 4 4 = 0#4 := by
    apply BitVec.eq_of_getLsbD_eq
    intro i hi
    have h1 : ¬ 8 + (4 + i) < 1 := by omega
    have h2 : ¬ 8 + (4 + i) - 1 < 11 := by omega
    simp only [BitVec.getLsbD_extractLsb', bits, if_neg h1, if_neg h2]
    simp
  have mid : ((armField dest len).extractLsb' 8 8 ++ (armField dest len).extractLsb' 0 8).extractLsb' 1 11 = len := by
    apply BitVec.eq_of_getLsbD_eq
    intro i hi
    simp only [BitVec.getLsbD_extractLsb', BitVec.getLsbD_append]
    split
    · have h1 : ¬ 0 + (1 + i) < 1 := by omega
      have h2 : 0 + (1 + i) - 1 < 11 := by omega
      have h3 : 0 + (1 + i) - 1 = i := by omega
      simp only [bits, if_neg h1, h3]
      simp [*]
    · have h1 : ¬ 8 + (1 + i - 8) < 1 := by omega
      have h2 : 8 + (1 + i - 8) - 1 < 11 := by omega
      have h3 : 8 + (1 + i - 8) - 1 = i := by omega
      simp only [bits, if_neg h1, h3]
      simp [hi]
      omega
  simp only [armOperand, top, if_true, low, mid]
  cases dest <;> simp

theorem RoundTrip.symReady : RoundTrip.Statement .symReady := fun _ => rfl

theorem RoundTrip.symAck : RoundTrip.Statement .symAck := fun _ => rfl

theorem RoundTrip.symPage : RoundTrip.Statement .symPage := fun _ => rfl

theorem RoundTrip.symTimeout : RoundTrip.Statement .symTimeout := fun _ => rfl

theorem RoundTrip.symCsum : RoundTrip.Statement .symCsum := fun _ => rfl

theorem RoundTrip.symError : RoundTrip.Statement .symError := fun _ => rfl

theorem RoundTrip.symDone : RoundTrip.Statement .symDone := fun _ => rfl

theorem RoundTrip.magicFrame (m : Byte) : RoundTrip.Statement (.magicFrame m) := fun _ => rfl

theorem RoundTrip.countFrame (n : Byte) : RoundTrip.Statement (.countFrame n) := fun _ => rfl

theorem RoundTrip.pageFrame (b : List Byte) : RoundTrip.Statement (.pageFrame b) := by
  intro h
  have h : b.length = 1024 := by simpa [Instr.wellFormed] using h
  simp [Instr.space, encode, decode, decodeFrame, h]

theorem RoundTrip.csumFrame (c : Word) : RoundTrip.Statement (.csumFrame c) := by
  intro _
  simp [Instr.space, encode, decode, decodeFrame, leBytes]

theorem RoundTrip.sSettleA : RoundTrip.Statement .sSettleA := fun _ => rfl

theorem RoundTrip.sAnnounce : RoundTrip.Statement .sAnnounce := fun _ => rfl

theorem RoundTrip.sRecvMagic : RoundTrip.Statement .sRecvMagic := fun _ => rfl

theorem RoundTrip.sAuth : RoundTrip.Statement .sAuth := fun _ => rfl

theorem RoundTrip.sAck : RoundTrip.Statement .sAck := fun _ => rfl

theorem RoundTrip.sRecvCount : RoundTrip.Statement .sRecvCount := fun _ => rfl

theorem RoundTrip.sUnlock : RoundTrip.Statement .sUnlock := fun _ => rfl

theorem RoundTrip.sSetTiming : RoundTrip.Statement .sSetTiming := fun _ => rfl

theorem RoundTrip.sLoopTest : RoundTrip.Statement .sLoopTest := fun _ => rfl

theorem RoundTrip.sCrcReset : RoundTrip.Statement .sCrcReset := fun _ => rfl

theorem RoundTrip.sArmPage : RoundTrip.Statement .sArmPage := fun _ => rfl

theorem RoundTrip.sReqPage : RoundTrip.Statement .sReqPage := fun _ => rfl

theorem RoundTrip.sAwaitPage : RoundTrip.Statement .sAwaitPage := fun _ => rfl

theorem RoundTrip.sToRearm : RoundTrip.Statement .sToRearm := fun _ => rfl

theorem RoundTrip.sToTx : RoundTrip.Statement .sToTx := fun _ => rfl

theorem RoundTrip.sCrcCalc : RoundTrip.Statement .sCrcCalc := fun _ => rfl

theorem RoundTrip.sArmCsum : RoundTrip.Statement .sArmCsum := fun _ => rfl

theorem RoundTrip.sReqCsum : RoundTrip.Statement .sReqCsum := fun _ => rfl

theorem RoundTrip.sAwaitCsum : RoundTrip.Statement .sAwaitCsum := fun _ => rfl

theorem RoundTrip.sVerify : RoundTrip.Statement .sVerify := fun _ => rfl

theorem RoundTrip.sErrTx : RoundTrip.Statement .sErrTx := fun _ => rfl

theorem RoundTrip.sErase : RoundTrip.Statement .sErase := fun _ => rfl

theorem RoundTrip.sProgram : RoundTrip.Statement .sProgram := fun _ => rfl

theorem RoundTrip.sAdvance : RoundTrip.Statement .sAdvance := fun _ => rfl

theorem RoundTrip.sLock : RoundTrip.Statement .sLock := fun _ => rfl

theorem RoundTrip.sDoneTx : RoundTrip.Statement .sDoneTx := fun _ => rfl

theorem RoundTrip.sSettleF : RoundTrip.Statement .sSettleF := fun _ => rfl

theorem RoundTrip.sDisable : RoundTrip.Statement .sDisable := fun _ => rfl

theorem RoundTrip.sBootRead : RoundTrip.Statement .sBootRead := fun _ => rfl

theorem RoundTrip.sBootVtbr : RoundTrip.Statement .sBootVtbr := fun _ => rfl

theorem RoundTrip.sBootJump : RoundTrip.Statement .sBootJump := fun _ => rfl

theorem RoundTrip.sHandoff : RoundTrip.Statement .sHandoff := fun _ => rfl

theorem RoundTrip.txSend (b : Byte) : RoundTrip.Statement (.txSend b) := fun _ => rfl

theorem RoundTrip.rxRecv : RoundTrip.Statement .rxRecv := fun _ => rfl

theorem RoundTrip.trDisable : RoundTrip.Statement .trDisable := fun _ => rfl

theorem RoundTrip.sdArm (dest : Dest) (len : BitVec 11) : RoundTrip.Statement (.sdArm dest len) := fun _ => armOperand_armField dest len

theorem RoundTrip.sdDone : RoundTrip.Statement .sdDone := fun _ => rfl

theorem RoundTrip.ckReset : RoundTrip.Statement .ckReset := fun _ => rfl

theorem RoundTrip.ckBlock : RoundTrip.Statement .ckBlock := fun _ => rfl

theorem RoundTrip.nvUnlock : RoundTrip.Statement .nvUnlock := fun _ => rfl

theorem RoundTrip.nvSetTiming (v : Word) : RoundTrip.Statement (.nvSetTiming v) := by
  intro _
  show Except.ok (Instr.nvSetTiming (leWord _ _ _ _)) = _
  rw [leWord_byteOf]

theorem RoundTrip.nvErasePage (addr : Word) : RoundTrip.Statement (.nvErasePage addr) := by
  intro _
  show Except.ok (Instr.nvErasePage (leWord _ _ _ _)) = _
  rw [leWord_byteOf]

theorem RoundTrip.nvProgramWord (addr : Word) (data : Word) : RoundTrip.Statement (.nvProgramWord addr data) := by
  intro _
  show Except.ok (Instr.nvProgramWord (leWord _ _ _ _) (leWord _ _ _ _)) = _
  rw [leWord_byteOf, leWord_byteOf]

theorem RoundTrip.nvLock : RoundTrip.Statement .nvLock := fun _ => rfl

theorem RoundTrip.nvRead32 (addr : Word) : RoundTrip.Statement (.nvRead32 addr) := by
  intro _
  show Except.ok (Instr.nvRead32 (leWord _ _ _ _)) = _
  rw [leWord_byteOf]

theorem RoundTrip.sysSetVtbr (addr : Word) : RoundTrip.Statement (.sysSetVtbr addr) := by
  intro _
  show Except.ok (Instr.sysSetVtbr (leWord _ _ _ _)) = _
  rw [leWord_byteOf]

theorem RoundTrip.sysJump (entry : Word) : RoundTrip.Statement (.sysJump entry) := by
  intro _
  show Except.ok (Instr.sysJump (leWord _ _ _ _)) = _
  rw [leWord_byteOf]

end Sys2Proof.Laws
end

