-- ==== Sys2Proof/Tests/Slice0.lean ====
section
/-! SUPPORT. Our own tests: ill-formed terms refused, words written out from the spec's tables decoded, single steps of
`95_test_vectors.md`, and for every statement with hypotheses a state that meets them. -/

namespace Sys2Proof.Tests

open Sys2Proof Sys2Proof.Machine

/-! ## Helpers -/

/-- Reset under the example parameters of `95_test_vectors.md` (APP_BASE 0x08001000, FLASH_END 0x08020000). -/
def s0 : State := State.initial {}

/-- A field of the next state. -/
def field {α : Type} (o : Host.Outcome State Fault Refusal) (f : State → α) : Option α :=
  match o with
  | .next t => some (f t)
  | .fault _ => none
  | .refused _ => none

/-- A state at an operation. -/
def at_ (c : BitVec 5) : State := { s0 with st := c }

/-- The state at the gate of a one-page session whose checksums agree, before the erase. -/
def atErase : State :=
  { s0 with
    st := Code.erase, rxByte := 1#8, remaining := 1#8, cursor := 0x08001000#32, budget := 3,
    nvLocked := false, nvTiming := some 0#32, sdDest := .csumSlot, sdLen := 4, sdCnt := 4, sdDone := true,
    crcLocal := checksum .crc32 (bufferWords s0), csumSlot := checksum .crc32 (bufferWords s0),
    txLog := [0x32#8, 0x53#8, 0x50#8, 0x43#8], script := [.turn (.host 0x55#8)] }

/-! ## WellFormed: one term for each check, which the check refuses (R72, R79, R211, R213, R215) -/

theorem test_wf_page_of_two_bytes : (Instr.pageFrame [1#8, 2#8]).wellFormed = false := by decide
theorem test_wf_arm_of_five_bytes : (Instr.sdArm .csumSlot 5#11).wellFormed = false := by decide
theorem test_wf_arm_page_of_four : (Instr.sdArm .pageBuf 4#11).wellFormed = false := by decide
theorem test_wf_erase_inside_page : (Instr.nvErasePage 0x08001004#32).wellFormed = false := by decide
theorem test_wf_program_misaligned : (Instr.nvProgramWord 0x08001002#32 0#32).wellFormed = false := by decide
theorem test_wf_read_misaligned : (Instr.nvRead32 0x08001001#32).wellFormed = false := by decide

/-! ## Decoding: the words of R11, R71, R72, R76, R79 -/

theorem test_decode_symbols :
    [0x32#8, 0x53#8, 0x50#8, 0x54#8, 0x43#8, 0x45#8, 0x44#8].map (fun b => (decode .d2h [b]).toOption) =
      [some .symReady, some .symAck, some .symPage, some .symTimeout, some .symCsum, some .symError,
        some .symDone] := by decide

/-- E1: the checksum frame of 0x8B0A5208 is `08 52 0A 8B`. -/
theorem test_decode_frames :
    decode (.h2d .magic) [0xAA#8] = .ok (.magicFrame 0xAA#8) ∧
    decode (.h2d .count) [0xFF#8] = .ok (.countFrame 0xFF#8) ∧
    decode (.h2d .csum) [0x08#8, 0x52#8, 0x0A#8, 0x8B#8] = .ok (.csumFrame 0x8B0A5208#32) ∧
    decode (.h2d .count) [1#8, 2#8] = .error (.wrongLength 2) := by decide

/-- R72: 1024 bytes of any value are a page frame. -/
theorem test_decode_page_frame (b : List Byte) (h : (0xA5#8 :: b).length = 1024) :
    decode (.h2d .page) (0xA5#8 :: b) = .ok (.pageFrame (0xA5#8 :: b)) := by
  simp only [decode, decodeFrame, if_pos h]

theorem test_decode_operations_0_to_15 :
    (List.range 16).map (fun c => (decode .state [BitVec.ofNat 8 c]).toOption) =
      [some .sSettleA, some .sAnnounce, some .sRecvMagic, some .sAuth, some .sAck, some .sRecvCount, some .sUnlock,
        some .sSetTiming, some .sLoopTest, some .sCrcReset, some .sArmPage, some .sReqPage, some .sAwaitPage,
        some .sToRearm, some .sToTx, some .sCrcCalc] := by decide

theorem test_decode_operations_16_to_31 :
    (List.range 16).map (fun c => (decode .state [BitVec.ofNat 8 (16 + c)]).toOption) =
      [some .sArmCsum, some .sReqCsum, some .sAwaitCsum, some .sVerify, some .sErrTx, some .sErase, some .sProgram,
        some .sAdvance, some .sLock, some .sDoneTx, some .sSettleF, some .sDisable, some .sBootRead, some .sBootVtbr,
        some .sBootJump, some .sHandoff] := by decide

theorem test_decode_ports_without_operand :
    [0x20#8, 0x30#8, 0x41#8, 0x50#8, 0x51#8, 0x60#8, 0x64#8].map (fun b => (decode .port [b]).toOption) =
      [some .rxRecv, some .trDisable, some .sdDone, some .ckReset, some .ckBlock, some .nvUnlock,
        some .nvLock] := by decide

/-- E8 gives the two arms: destination 0 with 1024 bytes, destination 1 with 4 (the places of the bits are log 9). -/
theorem test_decode_ports_with_operands :
    decode .port [0x10#8, 0x53#8] = .ok (.txSend 0x53#8) ∧
    decode .port [0x40#8, 0x00#8, 0x08#8] = .ok (.sdArm .pageBuf 1024#11) ∧
    decode .port [0x40#8, 0x09#8, 0x00#8] = .ok (.sdArm .csumSlot 4#11) ∧
    decode .port [0x61#8, 0x78#8, 0x56#8, 0x34#8, 0x12#8] = .ok (.nvSetTiming 0x12345678#32) ∧
    decode .port [0x62#8, 0x00#8, 0x10#8, 0x00#8, 0x08#8] = .ok (.nvErasePage 0x08001000#32) ∧
    decode .port [0x63#8, 0xFC#8, 0x13#8, 0x00#8, 0x08#8, 0xFC#8, 0xFD#8, 0xFE#8, 0xFF#8] =
      .ok (.nvProgramWord 0x080013FC#32 0xFFFEFDFC#32) ∧
    decode .port [0x65#8, 0x04#8, 0x10#8, 0x00#8, 0x08#8] = .ok (.nvRead32 0x08001004#32) ∧
    decode .port [0x70#8, 0x00#8, 0x10#8, 0x00#8, 0x08#8] = .ok (.sysSetVtbr 0x08001000#32) ∧
    decode .port [0x71#8, 0x01#8, 0x11#8, 0x00#8, 0x08#8] = .ok (.sysJump 0x08001101#32) := by decide

/-- R78, V3: what no table assigns is refused by name. -/
theorem test_decode_refuses :
    decode .port [0x11#8] = .error (.unassignedPortCode 0x11#8) ∧
    decode .d2h [0x41#8] = .error (.notASymbol 0x41#8) ∧
    decode .state [0x20#8] = .error (.stateCodeTooWide 0x20#8) ∧
    decode .port [0x40#8, 0x00#8, 0x18#8] = .error .operandTooWide ∧
    decode .port [0x62#8, 0x00#8] = .error (.wrongLength 1) ∧
    decode .port [] = .error (.wrongLength 0) := by decide

/-- The table's numbering: the first byte is bits 7 to 0. -/
theorem test_table_words :
    decodeTableWord 8 0x32 = some .symReady ∧ decodeTableWord 8 0xAA = some (.magicFrame 0xAA#8) ∧
    decodeTableWord 8 0x16 = some .sProgram ∧ decodeTableWord 8 0x65 = some (.nvRead32 0#32) ∧
    decodeTableWord 40 0x0800100065 = some (.nvRead32 0x08001000#32) ∧
    decodeTableWord 32 0x8B0A5208 = some (.csumFrame 0x8B0A5208#32) := by decide

/-! ## What `withFetchWord` prepares, the next step runs -/

theorem test_fetch_operation : field (step (s0.withFetchWord 8 0x01)) State.txLog = some [0x32#8] := by decide
theorem test_fetch_port_command : field (step (s0.withFetchWord 8 0x60)) State.nvLocked = some false := by decide
theorem test_fetch_symbol : field (step (s0.withFetchWord 8 0x44)) State.txLog = some [0x44#8] := by decide
theorem test_fetch_frame :
    field (step (s0.withFetchWord 32 0x8B0A5208)) State.line = some [0x08#8, 0x52#8, 0x0A#8, 0x8B#8] := by decide

/-! ## Handshake (`95_test_vectors.md` 2.2) -/

theorem test_H1 : field (runSteps 3 (s0.withTurns 3 .sequencer)) (fun t => (t.dly, t.st)) = some (0, 1#5) := by decide
theorem test_H3 : field (exec .sAnnounce (at_ 1#5)) (fun t => (t.txLog, t.st)) = some ([0x32#8], 2#5) := by decide
theorem test_H5 :
    field (exec .sRecvMagic { at_ 2#5 with line := [0xAA#8, 0x01#8] }) (fun t => (t.rxByte, t.line, t.st)) =
      some (0xAA#8, [0x01#8], 3#5) := by decide
theorem test_H6 : field (exec .sAuth { at_ 3#5 with rxByte := 0xAA#8 }) State.st = some 4#5 := by decide
theorem test_H7 :
    [0x55#8, 0x00#8, 0xAB#8, 0x2A#8, 0xFF#8].map (fun b => field (exec .sAuth { at_ 3#5 with rxByte := b }) State.st) =
      List.replicate 5 (some 25#5) := by decide
theorem test_H11 :
    field (exec .sRecvCount { at_ 5#5 with line := [0xFF#8] }) (fun t => (t.remaining, t.cursor, t.st)) =
      some (255#8, 0x08001000#32, 6#5) := by decide
theorem test_H13 : field (exec .sUnlock (at_ 6#5)) (fun t => (t.nvLocked, t.st)) = some (false, 7#5) := by decide
theorem test_H14 : field (exec .sSetTiming (at_ 7#5)) (fun t => (t.nvTiming, t.st)) = some (some 0#32, 8#5) := by decide

/-! ## Page stream (2.3) -/

theorem test_S1_S2 :
    field (exec .sLoopTest { at_ 8#5 with remaining := 1#8 }) State.st = some 9#5 ∧
    field (exec .sLoopTest (at_ 8#5)) State.st = some 24#5 := by decide
theorem test_S3 :
    field (exec .sArmPage { at_ 10#5 with sdDone := true, sdDest := .csumSlot, sdLen := 4, sdCnt := 4 })
      (fun t => ((t.sdArmed, t.sdDest, t.sdLen), (t.sdCnt, t.sdDone, t.budget), t.st)) =
      some ((true, .pageBuf, 1024), (0, false, 3), 11#5) := by decide
theorem test_S4 :
    field (runSteps 4 ({ at_ 12#5 with sdArmed := true, budget := 3, sdCnt := 7 }.withTurns 4 .sequencer))
      (fun t => (t.budget, t.sdCnt, t.st)) = some (3, 0, 14#5) := by decide
theorem test_S6_S7 :
    field (exec .sAwaitPage { at_ 12#5 with sdDone := true, budget := 1 }) (fun t => (t.budget, t.st)) =
      some (1, 15#5) ∧
    field (exec .sAwaitPage { at_ 12#5 with budget := 1 }) (fun t => (t.budget, t.st)) = some (0, 13#5) := by decide
theorem test_S14 : field (exec .sAwaitCsum { at_ 18#5 with sdCnt := 3 }) State.st = some 18#5 := by decide
theorem test_S15_S16 :
    field (exec .sVerify { at_ 19#5 with crcLocal := 0x8B0A5208#32, csumSlot := 0x8B0A5208#32 }) State.st =
      some 21#5 ∧
    field (exec .sVerify { at_ 19#5 with crcLocal := 0x8B0A5208#32, csumSlot := 0x8B0A5209#32 }) State.st =
      some 20#5 := by decide
theorem test_S18 :
    field (exec .sErrTx { at_ 20#5 with remaining := 1#8 }) (fun t => (t.txLog, t.remaining, t.st)) =
      some ([0x45#8], 1#8, 8#5) := by decide

/-! ## Flash commit, finalize and boot (2.4, 2.5) -/

theorem test_C3 :
    field (exec .sProgram { at_ 22#5 with
      widx := 255#9, cursor := 0x08001000#32, nvLocked := false, nvMem := writeWord [] 0x080013FC 0xFFFFFFFF#32,
      pageBuf := s0.pageBuf.set 255 0xFFFEFDFC#32 })
      (fun t => (readWord t.nvMem 0x080013FC, t.widx, t.st)) = some (some 0xFFFEFDFC#32, 256#9, 23#5) := by decide
theorem test_C5 :
    field (exec .sAdvance { at_ 23#5 with cursor := 0x08001000#32, remaining := 1#8 })
      (fun t => (t.cursor, t.remaining, t.st)) = some (0x08001400#32, 0#8, 8#5) := by decide
theorem test_C9 :
    field (exec .sErase { at_ 21#5 with cursor := 0x08020000#32, nvLocked := false })
      (fun t => (t.fault, t.nvMem, t.st)) = some (some .storageOutOfRange, [], 21#5) := by decide
theorem test_F1 : field (exec .sDoneTx (at_ 25#5)) (fun t => (t.txLog, t.dly, t.st)) = some ([0x44#8], 2, 26#5) := by
  decide
theorem test_F4 :
    field (exec .sBootRead { at_ 28#5 with nvMem := writeWord [] 0x08001004 0x08001101#32 })
      (fun t => (t.entry, t.st)) = some (0x08001101#32, 29#5) := by decide
theorem test_F8 :
    field (exec .sBootJump { at_ 30#5 with entry := 0x08001101#32 }) (fun t => (t.handoff, t.st)) =
      some (some 0x08001101#32, 31#5) := by decide

/-! ## Interfaces and events (2.6, 2.7) -/

theorem test_I1 :
    field (driverTurn { s0 with sdArmed := true, line := [0x11#8, 0x22#8] })
      (fun t => (pageByte t.pageBuf 0, t.sdCnt, t.line)) = some (some 0x11#8, 1, [0x22#8]) := by decide
theorem test_I2 :
    field (driverTurn { s0 with sdArmed := true, sdCnt := 1023, line := [0x7F#8, 0x99#8] })
      (fun t => (t.sdCnt, t.sdDone, t.sdArmed, t.line, pageByte t.pageBuf 1023)) =
      some (1024, true, false, [0x99#8], some 0x7F#8) := by decide
theorem test_I3 :
    field (driverTurn { s0 with
      sdArmed := true, sdDest := .csumSlot, sdLen := 4, sdCnt := 3, csumSlot := 0x000A5208#32, line := [0x8B#8] })
      (fun t => (t.csumSlot, t.sdDone, t.sdArmed)) = some (0x8B0A5208#32, true, false) := by decide
theorem test_I6_I7 :
    crcFeed (ckInit .crc32) 0x00000000#32 = 0xC704DD7B#32 ∧ crcFeed (ckInit .crc32) 0x12345678#32 = 0xDF8A8A2B#32 := by
  decide +kernel
theorem test_I9 :
    field (exec (.nvErasePage 0x08001000#32) s0) (fun t => (t.fault, t.nvMem)) = some (some .storageLocked, []) := by
  decide
theorem test_I10 :
    field (exec (.nvProgramWord 0x08001000#32 5#32) { s0 with nvLocked := false, nvMem := writeWord [] 0x08001000 0#32 })
      (fun t => (t.fault, readWord t.nvMem 0x08001000)) = some (some .programNotErased, none) := by decide
theorem test_I11 :
    field (exec (.txSend 0x32#8) { s0 with txEn := false }) (fun t => (t.fault, t.txLog)) =
      some (some .transportDisabled, []) := by decide
theorem test_X2 :
    field (step { at_ 22#5 with
      cursor := 0x08001000#32, nvLocked := false, script := [.turn .reset],
      nvMem := writeWord (writeWord [] 0x080013FC 1#32) 0x08001400 2#32 })
      (fun t => (t.st, t.nvLocked, readWord t.nvMem 0x080013FC, readWord t.nvMem 0x08001400)) =
      some (0#5, true, none, some 2#32) := by decide

/-! ## Witnesses: states that meet the hypotheses of the statements -/

theorem witness_ResetEventRestoresTheResetState : ∃ s : State,
    (nextEvent s).1 = .turn .reset ∧ s.fault ≠ none ∧ s.st = Code.program :=
  ⟨{ at_ Code.program with fault := some .storageLocked, script := [.turn .reset] }, by decide⟩

theorem witness_SequencerTurnRunsTheOperationSt : ∃ (s : State) (i : Instr), s.fault = none ∧
    (nextEvent s).1 = .turn .sequencer ∧ decode .state [s.st.setWidth 8] = .ok i :=
  ⟨{ at_ Code.bootJump with script := [.turn .sequencer] }, .sBootJump, by decide⟩

theorem witness_TransactionRunsItsDecodedInstruction : ∃ (s t : State) (bs cs : List Byte), s.fault = none ∧
    s.script = [.transaction .port bs] ∧ decode .port bs = .ok .ckReset ∧
    t.fault = none ∧ t.script = [.transaction .port cs] ∧ decode .port cs = .error (.unassignedPortCode 0xFF#8) :=
  ⟨{ s0 with script := [.transaction .port [0x50#8]] }, { s0 with script := [.transaction .port [0xFF#8]] },
    [0x50#8], [0xFF#8], by decide⟩

theorem witness_EveryTurnIsItsAgentsStep : ∃ s1 s2 s3 s4 s5 : State,
    (s1.fault = none ∧ (nextEvent s1).1 = .turn .driver) ∧
    (s2.fault = none ∧ (nextEvent s2).1 = .turn (.host 0xAA#8)) ∧
    (s3.fault = none ∧ (nextEvent s3).1 = .turn .drop) ∧
    (s4.fault = none ∧ (nextEvent s4).1 = .turn (.transport false)) ∧
    s5.script = [] :=
  ⟨{ s0 with script := [.turn .driver] }, { s0 with script := [.turn (.host 0xAA#8)] },
    { s0 with script := [.turn .drop] }, { s0 with script := [.turn (.transport false)] }, s0, by decide⟩

theorem witness_FaultedMachineStops : ∃ (s : State) (r : Fault), s.fault = some r ∧ (nextEvent s).1 ≠ .turn .reset :=
  ⟨{ s0 with fault := some .storageLocked, script := [.turn .sequencer] }, _, rfl, by decide⟩

/-- A valuation at the boundary of the counters' width, one that breaks R7 (a), one whose delay does not fit (R12). -/
theorem witness_PowerOnChecksTheParameters :
    ParamValues.Ok { ({} : Params).val with budgetW := 2, settleA := 3, settleF := 3 } ∧
    ¬ ParamValues.Ok { ({} : Params).val with appBase := 0x08001004#32 } ∧
    ¬ ParamValues.Ok { ({} : Params).val with budgetW := 2, settleA := 4 } := by decide

theorem witness_DecodeReadsBackEveryEncoding :
    (Instr.sdArm .pageBuf 1024#11).wellFormed = true ∧ (Instr.nvErasePage 0xFFFFFC00#32).wellFormed = true ∧
    (Instr.nvProgramWord 0xFFFFFFFC#32 0#32).wellFormed = true := by decide

theorem witness_EncodeReadsBackEveryDecoding : decode .port [0x40#8, 0xFF#8, 0x0F#8] = .ok (.sdArm .csumSlot 2047#11) := by
  decide

theorem witness_PageBufferWordsAreLittleEndian : ∃ (buf : Vector Word 256) (b0 b1 b2 b3 : Byte),
    pageByte buf (4 * 255) = some b0 ∧ pageByte buf (4 * 255 + 1) = some b1 ∧
    pageByte buf (4 * 255 + 2) = some b2 ∧ pageByte buf (4 * 255 + 3) = some b3 :=
  ⟨s0.pageBuf.set 255 0xFFFEFDFC#32, 0xFC#8, 0xFD#8, 0xFE#8, 0xFF#8, by decide⟩

theorem witness_SettlingDelayCountsDown : ∃ s t : State, 0 < s.dly ∧ t.dly = 0 :=
  ⟨{ s0 with dly := 1 }, { s0 with dly := 0 }, by decide⟩

theorem witness_SettlingDelayTakesItsLengthAndOne : ∃ (s t : State) (n : Nat), s.fault = none ∧ s.dly = 0 ∧
    s.st = Code.settleA ∧ t.fault = none ∧ t.dly = n ∧ 0 < n ∧ t.st = Code.settleF :=
  ⟨{ s0 with dly := 0 }, { at_ Code.settleF with dly := 7 }, 7, by decide⟩

theorem witness_SendingOperationsAppendTheirSymbol : s0.txEn = true ∧ s0.txReady = true := by decide

theorem witness_BlockedOrDisabledSendsChangeNothing : ∃ s t : State,
    Instr.symDone ∈ [Instr.sAnnounce, .sAck, .sReqPage, .sToTx, .sReqCsum, .sErrTx, .sDoneTx, .txSend 0#8, .symReady,
      .symAck, .symPage, .symTimeout, .symCsum, .symError, .symDone] ∧ (s.txEn = true ∧ s.txReady = false) ∧ t.txEn = false :=
  ⟨{ s0 with txReady := false }, { s0 with txEn := false }, by decide⟩

theorem witness_ReceivesTakeTheOldestByte : ∃ (s : State) (b : Byte) (rest : List Byte), s.rxEn = true ∧
    s.sdArmed = false ∧ s.line = b :: rest := ⟨{ s0 with line := [0xAA#8] }, 0xAA#8, [], by decide⟩

theorem witness_BlockedOrDisabledReceivesChangeNothing : ∃ s t u : State,
    (s.rxEn = true ∧ s.line = []) ∧ (t.rxEn = true ∧ t.sdArmed = true) ∧ u.rxEn = false :=
  ⟨s0, { s0 with sdArmed := true, line := [0xAA#8] }, { s0 with rxEn := false }, by decide⟩

theorem witness_LocalChecksumIsTheBuffersChecksum : ∃ s : State, s.ckAcc = ckInit s.cfg.val.checksum :=
  ⟨{ s0 with ckAcc := 0xFFFFFFFF#32 }, by decide⟩

theorem witness_PollSamplesTheFlagBeforeTheBudget : ∃ s t u : State, (s.sdDone = true ∧ s.budget = 1) ∧
    (t.sdDone = false ∧ t.budget = 2) ∧ u.sdDone = false ∧ u.budget = 1 :=
  ⟨{ s0 with sdDone := true, budget := 1 }, { s0 with budget := 2 }, { s0 with budget := 1 }, by decide⟩

theorem witness_TimeoutComesAfterTheWholeBudget : ∃ (s : State) (n : Nat), s.fault = none ∧ s.st = Code.awaitPage ∧
    s.sdDone = false ∧ s.budget = n ∧ 0 < n := ⟨{ at_ Code.awaitPage with budget := 1 }, 1, by decide⟩

/-- The last page: `a + 1024 = FLASH_END` (C8), with addresses just outside the page. -/
theorem witness_EraseDestroysExactlyItsPage : ∃ (s : State) (a : Word), a.toNat % 1024 = 0 ∧ s.nvLocked = false ∧
    a.toNat + 1024 = s.cfg.val.flashEnd.toNat ∧ s.cursor = a ∧ 0x0801FBFF < a.toNat ∧ a.toNat + 1024 ≤ 0x08020000 :=
  ⟨{ s0 with nvLocked := false, cursor := 0x0801FC00#32 }, 0x0801FC00#32, by decide⟩

theorem witness_EraseFaultsChangeNothing : ∃ (s t u : State),
    (s.cursor = 0x08001001#32 ∧ s.cursor.toNat % 1024 ≠ 0) ∧ (t.cursor.toNat % 1024 = 0 ∧ t.nvLocked = true) ∧
    (u.cursor.toNat % 1024 = 0 ∧ u.nvLocked = false ∧ u.cfg.val.flashEnd.toNat < u.cursor.toNat + 1024) :=
  ⟨{ s0 with cursor := 0x08001001#32 }, { s0 with cursor := 0x08001000#32 },
    { s0 with cursor := 0x08020000#32, nvLocked := false }, by decide⟩

/-- The last word of storage, with index 255. -/
theorem witness_ProgramStoresExactlyItsWord : ∃ (s : State) (a d : Word), a.toNat % 4 = 0 ∧ s.nvLocked = false ∧
    a.toNat + 4 = s.cfg.val.flashEnd.toNat ∧ readWord s.nvMem a.toNat = some s.cfg.val.erased ∧
    s.widx.toNat < 256 ∧ programAddr s = a ∧ s.pageBuf[s.widx.toNat]? = some d :=
  ⟨{ s0 with
      nvLocked := false, cursor := 0x0801FC00#32, widx := 255#9,
      nvMem := writeWord [] 0x0801FFFC 0xFFFFFFFF#32 }, 0x0801FFFC#32, 0#32, by decide⟩

/-- An index past the buffer: the word at `cursor + 4 * 256` is erased, and a draw is stored there (log 16). -/
theorem witness_ProgramStoresExactlyItsWord_past_the_buffer : ∃ (s : State) (a : Word), a.toNat % 4 = 0 ∧
    s.nvLocked = false ∧ a.toNat + 4 ≤ s.cfg.val.flashEnd.toNat ∧
    readWord s.nvMem a.toNat = some s.cfg.val.erased ∧ s.widx.toNat = 256 ∧ programAddr s = a :=
  ⟨{ s0 with
      nvLocked := false, cursor := 0x08001000#32, widx := 256#9,
      nvMem := writeWord [] 0x08001400 0xFFFFFFFF#32 }, 0x08001400#32, by decide⟩

theorem witness_ProgramFaultsStoreNothing : ∃ (s t u v : State),
    ((programAddr s).toNat % 4 ≠ 0 ∧ s.widx.toNat = 256) ∧
    ((programAddr t).toNat % 4 = 0 ∧ t.nvLocked = true) ∧
    ((programAddr u).toNat % 4 = 0 ∧ u.nvLocked = false ∧ u.cfg.val.flashEnd.toNat < (programAddr u).toNat + 4) ∧
    ((programAddr v).toNat % 4 = 0 ∧ v.nvLocked = false ∧ (programAddr v).toNat + 4 = v.cfg.val.flashEnd.toNat ∧
      readWord v.nvMem (programAddr v).toNat ≠ some v.cfg.val.erased) :=
  ⟨{ s0 with cursor := 0x08001002#32, widx := 256#9 }, { s0 with cursor := 0x08001000#32 },
    { s0 with cursor := 0x08020000#32, nvLocked := false },
    { s0 with cursor := 0x0801FC00#32, nvLocked := false, widx := 255#9 }, by decide⟩

theorem witness_AdvanceMovesTheSessionByOnePage : ∃ s : State, 0 < s.remaining.toNat ∧ s.cursor.toNat + 1024 < 2 ^ 32 :=
  ⟨{ s0 with remaining := 1#8, cursor := 0xFFFFFBFF#32 }, by decide⟩

theorem witness_CommitMakesThePageEqualTheBuffer : atErase.fault = none ∧ atErase.st = Code.erase ∧
    atErase.nvLocked = false ∧ atErase.cursor.toNat % 1024 = 0 ∧
    atErase.cursor.toNat + 1024 ≤ atErase.cfg.val.flashEnd.toNat := by decide

theorem witness_ReadReturnsTheWordOrADraw : ∃ (s t u : State) (a w : Word),
    (a.toNat % 4 = 0 ∧ a.toNat + 4 = s.cfg.val.flashEnd.toNat ∧ readWord s.nvMem a.toNat = some w) ∧
    (readWord t.nvMem a.toNat = none ∧ a.toNat + 4 = t.cfg.val.flashEnd.toNat) ∧
    ((entryVectorAddr u).toNat % 4 = 0 ∧ (entryVectorAddr u).toNat + 4 ≤ u.cfg.val.flashEnd.toNat ∧
      entryVectorAddr u = u.cfg.val.appBase + 4#32) :=
  ⟨{ s0 with nvMem := writeWord [] 0x0801FFFC 7#32 }, s0, s0, 0x0801FFFC#32, 7#32, by decide⟩

theorem witness_ReadFaultsChangeNothing : (0x08001005#32).toNat % 4 ≠ 0 ∧ (0x08020000#32).toNat % 4 = 0 ∧
    s0.cfg.val.flashEnd.toNat < (0x08020000#32).toNat + 4 := by decide

theorem witness_UnlockAlwaysCompletes : ∃ s : State, s.nvLocked = false := ⟨{ s0 with nvLocked := false }, rfl⟩

theorem witness_HandoffIsTerminal : ∃ (s t : State) (u : Turn), s.over ∧
    (nextEvent s).1 = .turn u ∧ u ≠ .reset ∧ step s = .next t :=
  ⟨{ at_ Code.handoff with handoff := some 1#32, script := [.turn .sequencer] }, _, .sequencer,
    ⟨rfl, rfl⟩, rfl, by decide, rfl⟩

theorem witness_ArmForgetsTheTransferBefore : 1 ≤ (1#11).toNat ∧ 1 ≤ (1024#11).toNat := by decide

theorem witness_SymbolsAreSentAsTheirBytes : s0.txEn = true ∧ s0.txReady = true := by decide

theorem witness_PageFrameIsItsBytesOneByOne : ∃ (s : State) (b : List Byte), s.fault = none ∧
    s.script = b.map (fun x => Event.turn (.host x)) ∧ b ≠ [] :=
  ⟨{ s0 with script := [.turn (.host 1#8), .turn (.host 2#8)] }, [1#8, 2#8], by decide⟩

/-- The last byte of the page buffer, the first of the slot, and an index past the slot. -/
theorem witness_DriverStoresOneBytePerStep : ∃ (s t v : State) (b : Byte),
    (v.sdArmed = true ∧ v.rxEn = true ∧ v.line = [b] ∧ v.sdDest.size ≤ v.sdCnt) ∧
    (s.sdArmed = true ∧ s.rxEn = true ∧ s.line = [b] ∧ s.sdCnt + 1 = s.sdLen ∧ s.sdCnt < s.sdDest.size ∧
      s.sdDest = .pageBuf) ∧
    (t.sdArmed = true ∧ t.rxEn = true ∧ t.line = [b] ∧ t.sdCnt < t.sdDest.size ∧ t.sdDest = .csumSlot) :=
  ⟨{ s0 with sdArmed := true, sdCnt := 1023, line := [9#8] },
    { s0 with sdArmed := true, sdDest := .csumSlot, sdLen := 4, sdCnt := 0, line := [9#8] },
    { s0 with sdArmed := true, sdDest := .csumSlot, sdLen := 5, sdCnt := 4, line := [9#8] }, 9#8, by decide⟩

theorem witness_BuffersAreStableWithoutTheDriver : ∃ s t v : State, ∃ u : Turn,
    s.sdArmed = true ∧ s.sdDest = .csumSlot ∧ (nextEvent s).1 = .turn u ∧ u ≠ .reset ∧ step s = .next t ∧
    t.sdDone = true ∧ exec (.sdArm .pageBuf 1024#11) s0 = .next v :=
  ⟨{ s0 with
      sdArmed := true, sdDest := .csumSlot, sdLen := 4, sdCnt := 3, line := [9#8], script := [.turn .driver] },
    _, _, .driver, rfl, rfl, rfl, by decide, rfl, rfl, rfl⟩

theorem witness_DropTakesOnlyUnsolicitedBytes : ∃ s t u v w : State,
    (s.rxEn = true ∧ s.sdArmed = true ∧ s.sdDone = false) ∧
    (t.rxEn = true ∧ t.sdDone = false ∧ t.st = Code.recvMagic) ∧
    (u.sdArmed = false ∧ u.st ≠ Code.recvMagic ∧ u.st ≠ Code.recvCount) ∧ v.sdDone = true ∧ w.rxEn = false :=
  ⟨{ s0 with sdArmed := true }, at_ Code.recvMagic, s0, { s0 with sdDone := true }, { s0 with rxEn := false }, by decide⟩

theorem witness_PageTransferFillsTheBufferInLineOrder : ∃ (s : State) (bs rest : List Byte), s.fault = none ∧
    s.rxEn = true ∧ s.sdArmed = true ∧ s.sdDone = false ∧ s.sdDest = .pageBuf ∧ s.sdLen = 1024 ∧ s.sdCnt = 0 ∧
    bs.length = 1024 ∧ s.line = bs ++ rest :=
  ⟨{ s0 with sdArmed := true, line := List.replicate 1024 0xA5#8 ++ [1#8] }, List.replicate 1024 0xA5#8, [1#8],
    rfl, rfl, rfl, rfl, rfl, rfl, rfl, List.length_replicate, rfl⟩

theorem witness_ChecksumTransferAssemblesTheSlot : ∃ (s : State) (c0 c1 c2 c3 : Byte) (rest : List Byte),
    s.fault = none ∧ s.rxEn = true ∧ s.sdArmed = true ∧ s.sdDone = false ∧ s.sdDest = .csumSlot ∧ s.sdLen = 4 ∧
    s.sdCnt = 0 ∧ s.line = c0 :: c1 :: c2 :: c3 :: rest :=
  ⟨{ s0 with sdArmed := true, sdDest := .csumSlot, sdLen := 4, line := [8#8, 0x52#8, 0x0A#8, 0x8B#8] },
    8#8, 0x52#8, 0x0A#8, 0x8B#8, [], by decide⟩

/-- No turn but an arm: a driver that is not armed stays so (the last clause). -/
theorem witness_BuffersAreStableWithoutTheDriver_not_armed : ∃ s t : State, s.sdArmed = false ∧
    (nextEvent s).1 = .turn .sequencer ∧ step s = .next t ∧
    ¬ (s.st = Code.armPage ∨ s.st = Code.toRearm ∨ s.st = Code.armCsum) :=
  ⟨{ at_ Code.unlock with script := [.turn .sequencer] }, _, rfl, rfl, rfl, by decide⟩

theorem witness_SequencerFollowsTheTransitionTable : ∃ s t : State, s.fault = none ∧ exec (fetch s) s = .next t ∧
    t.st = Code.ack := ⟨{ at_ Code.auth with rxByte := 0xAA#8 }, _, rfl, rfl, rfl⟩

theorem witness_OnlyTwoOperationsChangeTheSession : ∃ (s t : State) (u : Turn), (nextEvent s).1 = .turn u ∧
    u ≠ .reset ∧ (u = .sequencer → s.st ≠ Code.recvCount ∧ s.st ≠ Code.advance) ∧ step s = .next t :=
  ⟨{ at_ Code.unlock with script := [.turn .sequencer] }, _, .sequencer, rfl, by decide, by decide, rfl⟩

theorem witness_StorageChangesOnlyInACommit : ∃ (s t : State) (u : Turn), (nextEvent s).1 = .turn u ∧ u ≠ .reset ∧
    step s = .next t ∧ (u = .sequencer → s.st ≠ Code.erase ∧ s.st ≠ Code.program) ∧ PhaseOk s ∧ s.nvTiming = none :=
  ⟨{ at_ Code.doneTx with script := [.turn .sequencer] }, _, .sequencer, rfl, by decide, rfl, by decide,
    by simp [PhaseOk, State.within, at_, s0, State.initial], rfl⟩

theorem witness_TranscriptGrowsBySymbolsOnly : ∃ (s t : State) (u : Turn), (nextEvent s).1 = .turn u ∧ u ≠ .reset ∧
    step s = .next t ∧ t.txLog ≠ s.txLog :=
  ⟨{ at_ Code.announce with script := [.turn .sequencer] }, _, .sequencer, rfl, by decide, rfl, by decide⟩

theorem witness_DisabledTransportStaysSilent : ∃ (s t : State) (u : Turn), s.rxEn = false ∧ s.txEn = false ∧
    (nextEvent s).1 = .turn u ∧ u ≠ .reset ∧ step s = .next t :=
  ⟨{ at_ Code.bootRead with rxEn := false, txEn := false, script := [.turn (.host 1#8)] }, _, .host 1#8,
    rfl, rfl, rfl, by decide, rfl⟩

theorem witness_HostBytesCommuteWithTheSequencer : ∃ (s t : State), Instr.sRecvMagic.space = .state ∧ s.line ≠ [] ∧
    exec .sRecvMagic s = .next t := ⟨{ at_ Code.recvMagic with line := [0xAA#8] }, _, rfl, by decide, rfl⟩

theorem witness_StepKeepsTheMemoryForm : ∃ s t : State, MemoryOk s ∧ s.nvMem ≠ [] ∧ step s = .next t :=
  ⟨{ s0 with nvMem := [(0, 1#8), (0x0801FFFF, 2#8)], script := [.turn .sequencer] }, _,
    by simp [MemoryOk, Memory.wf, s0, State.initial], by decide, rfl⟩

/-! ### The invariants -/

/-- The invariants at the gate of a one-page session. -/
theorem witness_Inv : Inv atErase where
  script := by simp [NoTransactions, atErase]
  memory := by simp [MemoryOk, Memory.wf, atErase, s0, State.initial]
  driver := by simp [DriverOk, atErase, s0, State.initial]
  phase := by simp [PhaseOk, State.within, atErase, s0, State.initial]
  session := by simp [SessionOk, State.within, atErase, s0, State.initial]
  counters := by
    refine ⟨by decide, by decide, by decide, by decide, fun _ => ⟨fun h => absurd h (by decide), fun h => absurd h (by decide)⟩⟩
  transfer := by simp [TransferOk, State.within, atErase, s0, State.initial]
  gate := by
    refine ⟨by simp [State.within, atErase], fun _ => ?_, fun _ => ?_⟩
    · simp only [atErase]; rfl
    · simp only [atErase]
  commit := by simp [CommitOk, State.within, atErase]

theorem witness_TranscriptOk : TranscriptOk atErase := by
  simp [TranscriptOk, transcriptOf, State.within, atErase]
  decide

/-- A state with all the invariants and a step that completes: the hypotheses of `StepKeepsTheDriverState`,
`StepKeepsThePhase`, `StepKeepsTheSession`, `StepKeepsTheInvariant` and `StepKeepsTheTranscriptLanguage`. -/
theorem witness_StepKeepsTheInvariant : ∃ s t : State, Inv s ∧ TranscriptOk s ∧ NoTransactions s ∧ DriverOk s ∧
    PhaseOk s ∧ SessionOk s ∧ step s = .next t :=
  ⟨atErase, _, witness_Inv, witness_TranscriptOk, witness_Inv.script, witness_Inv.driver, witness_Inv.phase,
    witness_Inv.session, rfl⟩

theorem witness_InvariantRulesOutEveryStop : Inv atErase ∧ atErase.fault = none ∧ atErase.st = Code.erase ∧
    atErase.cursor.toNat + 1024 ≤ atErase.cfg.val.flashEnd.toNat := ⟨witness_Inv, by decide⟩

end Sys2Proof.Tests
end

/-! PROOFS of the family `44_interfaces.md`: the commands that always complete (R205, R209), and which turns can touch
the streaming driver and its two buffers (R197, R201, R203, R204). -/

namespace Sys2Proof.Interfaces

open Sys2Proof Sys2Proof.Machine Sys2Proof.Laws

/-! ## Commands that always complete (R205, R209) -/

theorem exec_ckReset (s : State) : exec .ckReset s = .next (ckReset s) := rfl

theorem exec_nvUnlock (s : State) : exec .nvUnlock s = .next (nvUnlock s) := rfl

theorem nvUnlock_eq_self {s : State} (h : s.nvLocked = false) : nvUnlock s = s := by
  rw [nvUnlock, ← h]

/-- Settles O33: `CK.RESET` has no guard (R205). -/
theorem checksumResetAlwaysCompletes : Obligations.ChecksumResetAlwaysCompletes :=
  fun s => exec_ckReset s

/-- Settles O36: `NV.UNLOCK` has no guard, and clearing a clear lock writes back what stands there (R209). -/
theorem unlockAlwaysCompletes : Obligations.UnlockAlwaysCompletes :=
  fun s => ⟨exec_nvUnlock s, fun h => by rw [exec_nvUnlock, nvUnlock_eq_self h]⟩

/-! ## What belongs to a transfer -/

/-- The two buffers, and whether, where and how far the driver is armed to write them (R20, R21, R25). -/
structure Transfer where
  pageBuf : Vector Word 256
  csumSlot : Word
  armed : Bool
  dest : Dest
  len : Nat

/-- The part of the state that belongs to a transfer. -/
def transferOf (s : State) : Transfer := ⟨s.pageBuf, s.csumSlot, s.sdArmed, s.sdDest, s.sdLen⟩

theorem transferOf_eq_iff {s t : State} : transferOf t = transferOf s ↔
    t.pageBuf = s.pageBuf ∧ t.csumSlot = s.csumSlot ∧ t.sdArmed = s.sdArmed ∧ t.sdDest = s.sdDest ∧
      t.sdLen = s.sdLen := by
  simp [transferOf]

/-- If the outcome is a next state, the transfer in it is that of `s`. -/
def KeepsTransfer (s : State) (o : Host.Outcome State Fault Refusal) : Prop :=
  ∀ t, o = .next t → transferOf t = transferOf s

/-- However the transaction ends, the state it leaves has the transfer of `s`. -/
def TxnKeepsTransfer {α : Type} (s : State) : Txn α → Prop
  | .done _ u => transferOf u = transferOf s
  | .waits => True
  | .faults _ u => transferOf u = transferOf s

theorem keepsTransfer_next {s u : State} (h : transferOf u = transferOf s) : KeepsTransfer s (.next u) := by
  rintro _ ⟨⟩
  exact h

theorem keepsTransfer_finish {α : Type} {s : State} {x : Txn α} {k : α → State → State}
    (hx : TxnKeepsTransfer s x) (hk : ∀ a u, transferOf (k a u) = transferOf u) :
    KeepsTransfer s (x.finish s k) := by
  intro t h
  obtain ⟨a, u, rfl, rfl⟩ | ⟨-, rfl⟩ | ⟨r, u, rfl, rfl⟩ := finish_next h
  · exact (hk a u).trans hx
  · rfl
  · exact hx

/-! ## The transactions of the other ports keep the transfer -/

theorem txSend_keepsTransfer (b : Byte) (s : State) : TxnKeepsTransfer s (txSend b s) := by
  obtain ⟨-, h⟩ | ⟨-, -, h⟩ | ⟨-, -, h⟩ := txSend_cases b s <;> rw [h]
  · exact rfl
  · exact trivial
  · exact rfl

theorem rxRecv_keepsTransfer (s : State) : TxnKeepsTransfer s (rxRecv s) := by
  obtain ⟨-, h⟩ | ⟨-, -, h⟩ | ⟨b, rest, -, -, -, h⟩ := rxRecv_cases s <;> rw [h]
  · exact rfl
  · exact trivial
  · exact rfl

theorem nvErasePage_keepsTransfer (a : Word) (s : State) : TxnKeepsTransfer s (nvErasePage a s) := by
  obtain ⟨-, h⟩ | ⟨-, -, h⟩ | ⟨-, -, -, h⟩ | ⟨-, -, -, h⟩ := nvErasePage_cases a s <;> rw [h] <;> exact rfl

theorem nvProgramWord_keepsTransfer (a d : Word) (s : State) : TxnKeepsTransfer s (nvProgramWord a d s) := by
  obtain ⟨-, h⟩ | ⟨-, -, h⟩ | ⟨-, -, -, h⟩ | ⟨-, -, -, -, h⟩ | ⟨-, -, -, -, h⟩ := nvProgramWord_cases a d s <;>
    rw [h] <;> exact rfl

theorem nvRead32_keepsTransfer (a : Word) (s : State) : TxnKeepsTransfer s (nvRead32 a s) := by
  obtain ⟨-, h⟩ | ⟨-, -, h⟩ | ⟨w, -, -, -, h⟩ | ⟨-, -, -, h⟩ := nvRead32_cases a s <;> rw [h] <;> exact rfl

theorem transferOf_settle (here next : BitVec 5) (s : State) : transferOf (settle here next s) = transferOf s := by
  obtain ⟨-, h⟩ | ⟨-, h⟩ := settle_cases here next s <;> rw [h] <;> rfl

theorem transferOf_raiseEvent (e : EngineEvent) (s : State) : transferOf (raiseEvent e s) = transferOf s := by
  cases e <;> rfl

theorem transferOf_dropTurn (s : State) : transferOf (dropTurn s) = transferOf s := by
  obtain ⟨-, h⟩ | ⟨-, h⟩ := dropTurn_cases s
  · rw [h]; rfl
  · rw [h]

/-! ## Instructions: only an arm touches the transfer -/

/-- The instructions that issue `SD.ARM` (R123, R126, R129, R201). -/
def armsDriver : Instr → Bool
  | .sArmPage | .sToRearm | .sArmCsum | .sdArm _ _ => true
  | _ => false

/-- Three codes of the operation space name an arming operation (R11). -/
theorem decodeState_armsDriver {c : BitVec 5} (h : armsDriver (decodeState c) = true) :
    c = Code.armPage ∨ c = Code.toRearm ∨ c = Code.armCsum := by
  revert c
  decide

/-- No instruction but an arm touches the buffers, or arms, disarms or redirects the driver (R204). -/
theorem exec_keepsTransfer {i : Instr} (hi : armsDriver i = false) (s : State) : KeepsTransfer s (exec i s) := by
  cases i with
  | sArmPage | sToRearm | sArmCsum | sdArm => cases hi
  | symReady | symAck | symPage | symTimeout | symCsum | symError | symDone | txSend
  | sAnnounce | sAck | sReqPage | sToTx | sReqCsum | sErrTx | sDoneTx =>
    exact keepsTransfer_finish (txSend_keepsTransfer _ s) fun _ _ => rfl
  | sRecvMagic | sRecvCount | rxRecv => exact keepsTransfer_finish (rxRecv_keepsTransfer s) fun _ _ => rfl
  | sErase | nvErasePage => exact keepsTransfer_finish (nvErasePage_keepsTransfer _ s) fun _ _ => rfl
  | sProgram | nvProgramWord => exact keepsTransfer_finish (nvProgramWord_keepsTransfer _ _ s) fun _ _ => rfl
  | sBootRead | nvRead32 => exact keepsTransfer_finish (nvRead32_keepsTransfer _ s) fun _ _ => rfl
  | sSettleA | sSettleF => exact keepsTransfer_next (transferOf_settle _ _ s)
  | sAuth | sVerify =>
    refine keepsTransfer_next ?_
    split
    · rfl
    · exact transferOf_raiseEvent _ s
  | sAwaitPage =>
    refine keepsTransfer_next ?_
    split
    · rfl
    · dsimp only
      split
      · exact transferOf_raiseEvent _ _
      · rfl
  | magicFrame | countFrame | pageFrame | csumFrame
  | sUnlock | sSetTiming | sLoopTest | sCrcReset | sCrcCalc | sAwaitCsum | sAdvance | sLock | sDisable
  | sBootVtbr | sBootJump | sHandoff
  | trDisable | sdDone | ckReset | ckBlock | nvUnlock | nvSetTiming | nvLock | sysSetVtbr | sysJump =>
    exact keepsTransfer_next rfl

/-- An arm leaves the driver armed and stores nothing (R201). -/
theorem exec_armsDriver {i : Instr} (hi : armsDriver i = true) {s t : State} (h : exec i s = .next t) :
    t.sdArmed = true ∧ t.pageBuf = s.pageBuf ∧ t.csumSlot = s.csumSlot := by
  cases i with
  | sArmPage | sToRearm | sArmCsum | sdArm => cases h; exact ⟨rfl, rfl, rfl⟩
  | _ => cases hi

/-! ## Turns -/

/-- What a turn `u` from `s` to `t` can do to the transfer: nothing, take one byte into the armed driver, or arm it. -/
inductive TransferChange (u : Turn) (s t : State) : Prop
  | kept (h : transferOf t = transferOf s)
  | took (b : Byte) (rest : List Byte) (hu : u = .driver) (ha : s.sdArmed = true) (h : t = driverTake b rest s)
  | armed (hu : u = .sequencer) (hst : s.st = Code.armPage ∨ s.st = Code.toRearm ∨ s.st = Code.armCsum)
      (ha : t.sdArmed = true) (hp : t.pageBuf = s.pageBuf) (hc : t.csumSlot = s.csumSlot)

/-- A driver that is not armed, or whose receiver is off, takes no step (R204, R195). -/
theorem driverTurn_of_disabled {s : State} (h : s.sdArmed = false ∨ s.rxEn = false) : driverTurn s = .next s := by
  obtain ⟨-, hd⟩ | ⟨b, rest, ha, hr, -, -⟩ := driverTurn_cases s
  · exact hd
  · simp [ha, hr] at h

theorem sequencer_transferChange {s t : State} (h : exec (fetch s) s = .next t) : TransferChange .sequencer s t := by
  cases hi : armsDriver (fetch s) with
  | false => exact .kept (exec_keepsTransfer hi s t h)
  | true =>
    obtain ⟨ha, hp, hc⟩ := exec_armsDriver hi h
    exact .armed rfl (decodeState_armsDriver hi) ha hp hc

theorem driverTurn_transferChange {s t : State} (h : driverTurn s = .next t) : TransferChange .driver s t := by
  obtain ⟨-, hd⟩ | ⟨b, rest, ha, -, -, ⟨-, hd⟩ | ⟨-, hd⟩⟩ := driverTurn_cases s <;> rw [hd] at h
  · cases h; exact .kept rfl
  · cases h; exact .took b rest rfl ha rfl
  · cases h

/-- A machine with a recorded fault answers no next state (R29). -/
theorem unlessFaulted_next {s t : State} {o : Host.Outcome State Fault Refusal} (h : unlessFaulted s o = .next t) :
    o = .next t := by
  cases hf : s.fault with
  | none => rwa [unlessFaulted_none hf] at h
  | some r => rw [unlessFaulted_some hf] at h; cases h

theorem runTurn_transferChange {u : Turn} (hu : u ≠ .reset) {s t : State} (h : runTurn u s = .next t) :
    TransferChange u s t := by
  cases u with
  | sequencer => exact sequencer_transferChange (unlessFaulted_next h)
  | driver => exact driverTurn_transferChange (unlessFaulted_next h)
  | host b => cases unlessFaulted_next h; exact .kept rfl
  | drop => cases unlessFaulted_next h; exact .kept (transferOf_dropTurn s)
  | transport ready => cases unlessFaulted_next h; exact .kept rfl
  | reset => exact absurd rfl hu

/-- A step whose next event is a turn performs that turn, with only the schedule's bookkeeping moved on. -/
theorem step_of_turn {s : State} {u : Turn} (h : (nextEvent s).1 = .turn u) :
    ∃ sc n, step s = runTurn u { s with script := sc, turnCount := n } := by
  obtain ⟨e, rest, hs, hn⟩ | ⟨hs, hn⟩ := nextEvent_cases s
  · obtain rfl : e = .turn u := by simpa [hn] using h
    exact ⟨rest, s.turnCount, step_cons hs⟩
  · obtain rfl : Config.freeTurn s.turnCount = u := by simpa [hn] using h
    exact ⟨s.script, s.turnCount + 1, step_nil hs⟩

/-! ## What the change of a transfer leaves in place (R197, R201, R204) -/

namespace TransferChange

variable {u : Turn} {s t : State}

theorem pageBuf_stable (h : TransferChange u s t) (hs : s.sdArmed = false ∨ s.sdDest = .csumSlot) :
    t.pageBuf = s.pageBuf := by
  cases h with
  | kept h =>
    obtain ⟨hp, -, -, -, -⟩ := transferOf_eq_iff.1 h
    exact hp
  | took b rest hu ha h =>
    have hd : s.sdDest = .csumSlot := hs.resolve_left (by simp [ha])
    simp [h, driverTake_pageBuf, hd]
  | armed hu hst ha hp hc => exact hp

theorem csumSlot_stable (h : TransferChange u s t) (hs : s.sdArmed = false ∨ s.sdDest = .pageBuf) :
    t.csumSlot = s.csumSlot := by
  cases h with
  | kept h =>
    obtain ⟨-, hc, -, -, -⟩ := transferOf_eq_iff.1 h
    exact hc
  | took b rest hu ha h =>
    have hd : s.sdDest = .pageBuf := hs.resolve_left (by simp [ha])
    simp [h, driverTake_csumSlot, hd]
  | armed hu hst ha hp hc => exact hc

/-- Only the byte that completes the transfer disarms the driver (R203). -/
theorem disarmed_by_completion (h : TransferChange u s t) (hs : s.sdArmed = true) :
    t.sdArmed = true ∨ (u = .driver ∧ t.sdCnt = s.sdLen ∧ t.sdDone = true) := by
  cases h with
  | kept h =>
    obtain ⟨-, -, ha, -, -⟩ := transferOf_eq_iff.1 h
    exact .inl (ha.trans hs)
  | took b rest hu ha h =>
    subst h
    by_cases hl : s.sdCnt + 1 = s.sdLen
    · exact .inr ⟨hu, by simp [hl], by simp [hl]⟩
    · exact .inl (by simp [hl, hs])
  | armed hu hst ha hp hc => exact .inl ha

/-- Only an arming operation arms the driver or redirects it (R201). -/
theorem armed_by_arm (h : TransferChange u s t)
    (hn : ¬ (u = .sequencer ∧ (s.st = Code.armPage ∨ s.st = Code.toRearm ∨ s.st = Code.armCsum))) :
    (s.sdArmed = false → t.sdArmed = false) ∧ t.sdDest = s.sdDest ∧ t.sdLen = s.sdLen := by
  cases h with
  | kept h =>
    obtain ⟨-, -, ha, hd, hl⟩ := transferOf_eq_iff.1 h
    exact ⟨ha.trans, hd, hl⟩
  | took b rest hu ha h => simp [h, ha]
  | armed hu hst ha hp hc => exact absurd ⟨hu, hst⟩ hn

end TransferChange

/-- Settles O42: a step can change the transfer in the three ways of `TransferChange` only. -/
theorem buffersAreStableWithoutTheDriver : Obligations.BuffersAreStableWithoutTheDriver := by
  refine ⟨fun s => driverTurn_of_disabled, fun s h => by simp [unsolicited, h],
    fun s t dest len h => (exec_armsDriver rfl h).2, fun s t u hu hr h => ?_⟩
  obtain ⟨sc, n, hs⟩ := step_of_turn hu
  have change : TransferChange u { s with script := sc, turnCount := n } t := runTurn_transferChange hr (hs ▸ h)
  exact ⟨change.pageBuf_stable, change.csumSlot_stable, change.disarmed_by_completion, change.armed_by_arm⟩

end Sys2Proof.Interfaces

/-! PROOFS, the layer the others stand on: how a transaction finishes in each of its cases, and, said once, every state
that one turn of an agent can leave (`00_scope.md` R8, `30_encoding.md` R77, `60_exceptions.md` R245). -/

namespace Sys2Proof.Turns

open Sys2Proof Sys2Proof.Machine Sys2Proof.Laws

/-! ## How a transaction finishes -/

section Finish

variable {s : State}

/-! ### Transport (R191 to R196) -/

theorem finish_txSend {b : Byte} (k : Unit → State → State) (he : s.txEn = true) (hr : s.txReady = true) :
    (txSend b s).finish s k = .next (k () { s with txLog := s.txLog ++ [b] }) := by
  simp [txSend, he, hr]

theorem finish_txSend_waits {b : Byte} (k : Unit → State → State) (he : s.txEn = true) (hr : s.txReady = false) :
    (txSend b s).finish s k = .next s := by
  simp [txSend, he, hr]

theorem finish_txSend_disabled {b : Byte} (k : Unit → State → State) (he : s.txEn = false) :
    (txSend b s).finish s k = .next { s with fault := some .transportDisabled } := by
  simp [txSend, he, State.recordFault]

theorem finish_rxRecv {b : Byte} {rest : List Byte} (k : Byte → State → State) (he : s.rxEn = true)
    (ha : s.sdArmed = false) (hl : s.line = b :: rest) :
    (rxRecv s).finish s k = .next (k b { s with line := rest }) := by
  simp [rxRecv, he, ha, hl]

theorem finish_rxRecv_waits (k : Byte → State → State) (he : s.rxEn = true) (h : s.sdArmed = true ∨ s.line = []) :
    (rxRecv s).finish s k = .next s := by
  cases ha : s.sdArmed
  · have hl : s.line = [] := h.resolve_left (by simp [ha])
    simp [rxRecv, he, ha, hl]
  · simp [rxRecv, he, ha]

theorem finish_rxRecv_disabled (k : Byte → State → State) (he : s.rxEn = false) :
    (rxRecv s).finish s k = .next { s with fault := some .transportDisabled } := by
  simp [rxRecv, he, State.recordFault]

/-! ### Storage (R48, R210 to R215) -/

variable {a d : Word}

theorem finish_nvErasePage (k : Unit → State → State) (ha : a.toNat % 1024 = 0) (hl : s.nvLocked = false)
    (hr : a.toNat + 1024 ≤ s.cfg.val.flashEnd.toNat) :
    (nvErasePage a s).finish s k =
      .next (k () { s with nvMem := erasePage s.nvMem a.toNat s.cfg.val.erased }) := by
  simp [nvErasePage, ha, hl, Nat.not_lt.2 hr]

theorem finish_nvErasePage_misaligned (k : Unit → State → State) (ha : a.toNat % 1024 ≠ 0) :
    (nvErasePage a s).finish s k = .next { s with fault := some .parameterConstraint } := by
  simp [nvErasePage, ha, State.recordFault]

theorem finish_nvErasePage_locked (k : Unit → State → State) (ha : a.toNat % 1024 = 0) (hl : s.nvLocked = true) :
    (nvErasePage a s).finish s k = .next { s with fault := some .storageLocked } := by
  simp [nvErasePage, ha, hl, State.recordFault]

theorem finish_nvErasePage_outOfRange (k : Unit → State → State) (ha : a.toNat % 1024 = 0) (hl : s.nvLocked = false)
    (hr : s.cfg.val.flashEnd.toNat < a.toNat + 1024) :
    (nvErasePage a s).finish s k = .next { s with fault := some .storageOutOfRange } := by
  simp [nvErasePage, ha, hl, hr, State.recordFault]

theorem finish_nvProgramWord (k : Unit → State → State) (ha : a.toNat % 4 = 0) (hl : s.nvLocked = false)
    (hr : a.toNat + 4 ≤ s.cfg.val.flashEnd.toNat) (he : readWord s.nvMem a.toNat = some s.cfg.val.erased) :
    (nvProgramWord a d s).finish s k = .next (k () { s with nvMem := writeWord s.nvMem a.toNat d }) := by
  simp [nvProgramWord, ha, hl, he, Nat.not_lt.2 hr]

theorem finish_nvProgramWord_misaligned (k : Unit → State → State) (ha : a.toNat % 4 ≠ 0) :
    (nvProgramWord a d s).finish s k = .next { s with fault := some .parameterConstraint } := by
  simp [nvProgramWord, ha, State.recordFault]

theorem finish_nvProgramWord_locked (k : Unit → State → State) (ha : a.toNat % 4 = 0) (hl : s.nvLocked = true) :
    (nvProgramWord a d s).finish s k = .next { s with fault := some .storageLocked } := by
  simp [nvProgramWord, ha, hl, State.recordFault]

theorem finish_nvProgramWord_outOfRange (k : Unit → State → State) (ha : a.toNat % 4 = 0) (hl : s.nvLocked = false)
    (hr : s.cfg.val.flashEnd.toNat < a.toNat + 4) :
    (nvProgramWord a d s).finish s k = .next { s with fault := some .storageOutOfRange } := by
  simp [nvProgramWord, ha, hl, hr, State.recordFault]

theorem finish_nvProgramWord_notErased (k : Unit → State → State) (ha : a.toNat % 4 = 0) (hl : s.nvLocked = false)
    (hr : a.toNat + 4 ≤ s.cfg.val.flashEnd.toNat) (he : readWord s.nvMem a.toNat ≠ some s.cfg.val.erased) :
    (nvProgramWord a d s).finish s k =
      .next { s with nvMem := forget s.nvMem a.toNat 4, fault := some .programNotErased } := by
  simp [nvProgramWord, ha, hl, he, Nat.not_lt.2 hr, State.recordFault]

theorem finish_nvRead32_some {w : Word} (k : Word → State → State) (ha : a.toNat % 4 = 0)
    (hr : a.toNat + 4 ≤ s.cfg.val.flashEnd.toNat) (hw : readWord s.nvMem a.toNat = some w) :
    (nvRead32 a s).finish s k = .next (k w s) := by
  simp [nvRead32, ha, hw, Nat.not_lt.2 hr]

theorem finish_nvRead32_none (k : Word → State → State) (ha : a.toNat % 4 = 0)
    (hr : a.toNat + 4 ≤ s.cfg.val.flashEnd.toNat) (hw : readWord s.nvMem a.toNat = none) :
    (nvRead32 a s).finish s k = .next (k (Config.freeWord s.draws) { s with draws := s.draws + 1 }) := by
  simp [nvRead32, ha, hw, Nat.not_lt.2 hr]

theorem finish_nvRead32_misaligned (k : Word → State → State) (ha : a.toNat % 4 ≠ 0) :
    (nvRead32 a s).finish s k = .next { s with fault := some .parameterConstraint } := by
  simp [nvRead32, ha, State.recordFault]

theorem finish_nvRead32_outOfRange (k : Word → State → State) (ha : a.toNat % 4 = 0)
    (hr : s.cfg.val.flashEnd.toNat < a.toNat + 4) :
    (nvRead32 a s).finish s k = .next { s with fault := some .storageOutOfRange } := by
  simp [nvRead32, ha, hr, State.recordFault]

end Finish

/-- The entry vector is word-aligned and its word lies below `FLASH_END` under every valuation (R7, R48). -/
theorem entryVectorAddr_inRange (s : State) :
    (entryVectorAddr s).toNat % 4 = 0 ∧ (entryVectorAddr s).toNat + 4 ≤ s.cfg.val.flashEnd.toNat := by
  obtain ⟨haligned, -, hroom, -⟩ := s.cfg.ok
  rw [entryVectorAddr_toNat]
  omega

/-! ## The operations that branch on a condition (R22), and the program -/

section Branches

variable {s : State}

theorem exec_sAuth (s : State) :
    exec .sAuth s = .next { s with st := if s.rxByte = Config.magic then Code.ack else Code.doneTx } := by
  simp only [exec, execSAuth, magicMatches, beq_iff_eq]
  split <;> rfl

theorem exec_sLoopTest (s : State) :
    exec .sLoopTest s = .next { s with st := if s.remaining.toNat = 0 then Code.lock else Code.crcReset } := by
  simp only [exec, execSLoopTest, morePages, decide_eq_true_eq, Nat.pos_iff_ne_zero, ite_not]
  rfl

/-- With the flag set a poll only goes on (R237). -/
theorem exec_sAwaitPage_set (h : s.sdDone = true) : exec .sAwaitPage s = .next { s with st := Code.crcCalc } :=
  congrArg Host.Outcome.next (if_pos h)

/-- With the flag clear a poll costs one of the budget, and the last one is a timeout (R125). -/
theorem exec_sAwaitPage_clear (h : s.sdDone = false) : exec .sAwaitPage s = .next { s with
    budget := budgetLess s, st := if budgetLess s = 0 then Code.toRearm else Code.awaitPage } := by
  simp only [exec, execSAwaitPage, sdDone, h, Bool.false_eq_true, if_false, budgetExpires, beq_iff_eq]
  split <;> rfl

theorem exec_sAwaitCsum (s : State) :
    exec .sAwaitCsum s = .next { s with st := if s.sdDone = true then Code.verify else Code.awaitCsum } := rfl

theorem exec_sVerify (s : State) :
    exec .sVerify s = .next { s with st := if s.crcLocal = s.csumSlot then Code.erase else Code.errTx } := by
  simp only [exec, execSVerify, checksumsEqual, beq_iff_eq]
  split <;> rfl

/-- A program that meets no fault stores one word and goes on, after word 255 to `S_ADVANCE` (R152). -/
theorem exec_sProgram (ha : (programAddr s).toNat % 4 = 0) (hl : s.nvLocked = false)
    (hr : (programAddr s).toNat + 4 ≤ s.cfg.val.flashEnd.toNat)
    (he : readWord s.nvMem (programAddr s).toNat = some s.cfg.val.erased) : exec .sProgram s = .next { s with
      nvMem := writeWord s.nvMem (programAddr s).toNat (programData s), widx := s.widx + 1#9,
      draws := programDraws s, st := if s.widx.toNat = 255 then Code.advance else Code.program } := by
  simp only [← lastWord_iff]
  exact finish_nvProgramWord _ ha hl hr he

end Branches

/-! ## What a sequencer turn can do (R9, R77)

`SeqStep s t` lists, one constructor for each kind of effect, every state `t` that the operation named by `s.st` can
leave; the operations with a common effect share a constructor and are listed in a table of their own. -/

/-- The operations that test something and write nothing but `st`: where each goes, and when. -/
inductive Chooses (s : State) : BitVec 5 → Prop
  | settledA (hst : s.st = Code.settleA) (h : s.dly = 0) : Chooses s Code.announce
  | settledF (hst : s.st = Code.settleF) (h : s.dly = 0) : Chooses s Code.disable
  | authentic (hst : s.st = Code.auth) (h : s.rxByte = Config.magic) : Chooses s Code.ack
  | notAuthentic (hst : s.st = Code.auth) (h : s.rxByte ≠ Config.magic) : Chooses s Code.doneTx
  | nextPage (hst : s.st = Code.loopTest) (h : 0 < s.remaining.toNat) : Chooses s Code.crcReset
  | noMorePages (hst : s.st = Code.loopTest) (h : s.remaining.toNat = 0) : Chooses s Code.lock
  | pageComplete (hst : s.st = Code.awaitPage) (h : s.sdDone = true) : Chooses s Code.crcCalc
  | csumComplete (hst : s.st = Code.awaitCsum) (h : s.sdDone = true) : Chooses s Code.verify
  | csumAwaited (hst : s.st = Code.awaitCsum) (h : s.sdDone = false) : Chooses s Code.awaitCsum
  | checksumsAgree (hst : s.st = Code.verify) (h : s.crcLocal = s.csumSlot) : Chooses s Code.erase
  | checksumsDiffer (hst : s.st = Code.verify) (h : s.crcLocal ≠ s.csumSlot) : Chooses s Code.errTx

/-- The sending operations but `S_DONE_TX`: the symbol and the next operation. -/
inductive Sends (s : State) : Byte → BitVec 5 → Prop
  | ready (hst : s.st = Code.announce) : Sends s Config.symReady Code.recvMagic
  | ack (hst : s.st = Code.ack) : Sends s Config.symAck Code.recvCount
  | page (hst : s.st = Code.reqPage) : Sends s Config.symPage Code.awaitPage
  | timeout (hst : s.st = Code.toTx) : Sends s Config.symTimeout Code.awaitPage
  | csum (hst : s.st = Code.reqCsum) : Sends s Config.symCsum Code.awaitCsum
  | error (hst : s.st = Code.errTx) : Sends s Config.symError Code.loopTest

/-- The arming operations: the destination and the next operation. -/
inductive Arms (s : State) : Dest → BitVec 5 → Prop
  | page (hst : s.st = Code.armPage) : Arms s .pageBuf Code.reqPage
  | again (hst : s.st = Code.toRearm) : Arms s .pageBuf Code.toTx
  | csum (hst : s.st = Code.armCsum) : Arms s .csumSlot Code.reqCsum

/-- Why an operation records a fault, and what storage holds then (R193, R210, R212, R213). -/
inductive Stops (s : State) : Memory → Prop
  | sendDisabled
      (hst : s.st ∈ [Code.announce, Code.ack, Code.reqPage, Code.toTx, Code.reqCsum, Code.errTx, Code.doneTx])
      (h : s.txEn = false) : Stops s s.nvMem
  | receiveDisabled (hst : s.st = Code.recvMagic ∨ s.st = Code.recvCount) (h : s.rxEn = false) : Stops s s.nvMem
  | eraseRefused (hst : s.st = Code.erase)
      (h : s.cursor.toNat % 1024 ≠ 0 ∨ s.nvLocked = true ∨ s.cfg.val.flashEnd.toNat < s.cursor.toNat + 1024) :
      Stops s s.nvMem
  | programRefused (hst : s.st = Code.program)
      (h : (programAddr s).toNat % 4 ≠ 0 ∨ s.nvLocked = true ∨
        s.cfg.val.flashEnd.toNat < (programAddr s).toNat + 4) : Stops s s.nvMem
  | notErased (hst : s.st = Code.program) (h : readWord s.nvMem (programAddr s).toNat ≠ some s.cfg.val.erased) :
      Stops s (forget s.nvMem (programAddr s).toNat 4)

/-- Every state the sequencer's turn can leave. -/
inductive SeqStep (s : State) : State → Prop
  | stays (h : s.stuck ∨ s.st = Code.handoff) : SeqStep s s
  | stops (r : Fault) {m : Memory} (h : Stops s m) : SeqStep s { s with nvMem := m, fault := some r }
  | chooses {c : BitVec 5} (h : Chooses s c) : SeqStep s { s with st := c }
  | sends {b : Byte} {c : BitVec 5} (h : Sends s b c) (htx : s.txEn = true) :
      SeqStep s { s with txLog := s.txLog ++ [b], st := c }
  | arms {d : Dest} {c : BitVec 5} (h : Arms s d c) : SeqStep s { s with
      sdArmed := true, sdDest := d, sdLen := d.size, sdCnt := 0, sdDone := false,
      budget := s.cfg.val.timeoutInit, st := c }
  | settling (hst : s.st = Code.settleA ∨ s.st = Code.settleF) (h : 0 < s.dly) :
      SeqStep s { s with dly := s.dly - 1 }
  | recvMagic {b : Byte} {rest : List Byte} (hst : s.st = Code.recvMagic) (hrx : s.rxEn = true)
      (hl : s.line = b :: rest) : SeqStep s { s with line := rest, rxByte := b, st := Code.auth }
  | recvCount {b : Byte} {rest : List Byte} (hst : s.st = Code.recvCount) (hrx : s.rxEn = true)
      (hl : s.line = b :: rest) :
      SeqStep s { s with
        line := rest, rxByte := b, remaining := b, cursor := s.cfg.val.appBase, st := Code.unlock }
  | unlock (hst : s.st = Code.unlock) : SeqStep s { s with nvLocked := false, st := Code.setTiming }
  | setTiming (hst : s.st = Code.setTiming) :
      SeqStep s { s with nvTiming := some s.cfg.val.nvmTiming, st := Code.loopTest }
  | crcReset (hst : s.st = Code.crcReset) :
      SeqStep s { s with ckAcc := ckInit s.cfg.val.checksum, st := Code.armPage }
  | polls (hst : s.st = Code.awaitPage) (h : s.sdDone = false) : SeqStep s { s with
      budget := budgetLess s, st := if budgetLess s = 0 then Code.toRearm else Code.awaitPage }
  | crcCalc (hst : s.st = Code.crcCalc) :
      SeqStep s { s with ckAcc := ckResult s, crcLocal := ckResult s, st := Code.armCsum }
  | erase (hst : s.st = Code.erase) (ha : s.cursor.toNat % 1024 = 0)
      (hr : s.cursor.toNat + 1024 ≤ s.cfg.val.flashEnd.toNat) : SeqStep s { s with
        nvMem := erasePage s.nvMem s.cursor.toNat s.cfg.val.erased, widx := 0#9, st := Code.program }
  | program (hst : s.st = Code.program) (ha : (programAddr s).toNat % 4 = 0)
      (hr : (programAddr s).toNat + 4 ≤ s.cfg.val.flashEnd.toNat) : SeqStep s { s with
        nvMem := writeWord s.nvMem (programAddr s).toNat (programData s), widx := s.widx + 1#9,
        draws := programDraws s, st := if s.widx.toNat = 255 then Code.advance else Code.program }
  | advance (hst : s.st = Code.advance) : SeqStep s { s with
      cursor := s.cursor + 1024#32, remaining := s.remaining - 1#8, st := Code.loopTest }
  | lock (hst : s.st = Code.lock) : SeqStep s { s with nvLocked := true, st := Code.doneTx }
  | sendsDone (hst : s.st = Code.doneTx) (htx : s.txEn = true) : SeqStep s { s with
      txLog := s.txLog ++ [Config.symDone], dly := s.cfg.val.settleF, st := Code.settleF }
  | disable (hst : s.st = Code.disable) : SeqStep s { s with rxEn := false, txEn := false, st := Code.bootRead }
  | bootRead (w : Word) (n : Nat) (hst : s.st = Code.bootRead) :
      SeqStep s { s with entry := w, draws := n, st := Code.bootVtbr }
  | bootVtbr (hst : s.st = Code.bootVtbr) : SeqStep s { s with vtbr := s.cfg.val.appBase, st := Code.bootJump }
  | bootJump (hst : s.st = Code.bootJump) : SeqStep s { s with handoff := some s.entry, st := Code.handoff }

/-- The state code of an operation: the byte that encodes it, in 5 bits (R11, R76). -/
def stateCode (i : Instr) : BitVec 5 := ((encode i).headD 0#8).setWidth 5

/-- The operation `st` names has the code in `st`, and is of the operation space. -/
theorem st_of_fetch {s : State} {i : Instr} (h : fetch s = i) : s.st = stateCode i ∧ i.space = .state := by
  have codes : ∀ c : BitVec 5, c = stateCode (decodeState c) ∧ (decodeState c).space = .state := by decide
  exact h ▸ codes s.st

/-- The operation answers a next state, one that `SeqStep` lists. -/
def Steps (i : Instr) (s : State) : Prop := ∃ t, exec i s = .next t ∧ SeqStep s t

section Operations

variable {s : State} {i : Instr}

/-- A sending operation goes on as `k` says, waits, or has the transmitter off. -/
theorem steps_send {b : Byte} {k : Unit → State → State} (hi : fetch s = i)
    (hx : exec i s = (txSend b s).finish s k) (hb : blocked i s = (s.txEn && !s.txReady))
    (hst : s.st ∈ [Code.announce, Code.ack, Code.reqPage, Code.toTx, Code.reqCsum, Code.errTx, Code.doneTx])
    (hk : s.txEn = true → SeqStep s (k () { s with txLog := s.txLog ++ [b] })) : Steps i s := by
  unfold Steps
  cases he : s.txEn
  · exact ⟨_, hx.trans (finish_txSend_disabled k he), .stops _ (.sendDisabled hst he)⟩
  · cases hr : s.txReady
    · exact ⟨_, hx.trans (finish_txSend_waits k he hr), .stays (.inl (by simp [State.stuck, hi, hb, he, hr]))⟩
    · exact ⟨_, hx.trans (finish_txSend k he hr), hk he⟩

/-- A receiving operation takes the oldest byte as `k` says, waits, or has the receiver off. -/
theorem steps_receive {k : Byte → State → State} (hi : fetch s = i)
    (hx : exec i s = (rxRecv s).finish s k) (hb : blocked i s = (s.rxEn && (s.sdArmed || s.line.isEmpty)))
    (hst : s.st = Code.recvMagic ∨ s.st = Code.recvCount)
    (hk : ∀ b rest, s.rxEn = true → s.line = b :: rest → SeqStep s (k b { s with line := rest })) : Steps i s := by
  unfold Steps
  cases he : s.rxEn
  · exact ⟨_, hx.trans (finish_rxRecv_disabled k he), .stops _ (.receiveDisabled hst he)⟩
  · by_cases hw : s.sdArmed = true ∨ s.line = []
    · exact ⟨_, hx.trans (finish_rxRecv_waits k he hw), .stays (.inl (by simpa [State.stuck, hi, hb, he] using hw))⟩
    · obtain ⟨ha, hl⟩ := not_or.1 hw
      obtain ⟨b, rest, hl⟩ := List.exists_cons_of_ne_nil hl
      exact ⟨_, hx.trans (finish_rxRecv k he (by simpa using ha) hl), hk b rest he hl⟩

theorem steps_settle {here next : BitVec 5} (hx : exec i s = .next (settle here next s)) (hst : s.st = here)
    (hs : here = Code.settleA ∨ here = Code.settleF) (hn : s.dly = 0 → Chooses s next) : Steps i s := by
  refine ⟨_, hx, ?_⟩
  obtain ⟨hd, h⟩ | ⟨hd, h⟩ := settle_cases here next s <;> rw [h]
  · subst hst
    exact .settling hs hd
  · exact .chooses (hn hd)

theorem steps_sAuth (hst : s.st = Code.auth) : Steps .sAuth s := by
  refine ⟨_, exec_sAuth s, ?_⟩
  split
  · exact .chooses (.authentic hst ‹_›)
  · exact .chooses (.notAuthentic hst ‹_›)

theorem steps_sLoopTest (hst : s.st = Code.loopTest) : Steps .sLoopTest s := by
  refine ⟨_, exec_sLoopTest s, ?_⟩
  split
  · exact .chooses (.noMorePages hst ‹_›)
  · exact .chooses (.nextPage hst (Nat.pos_of_ne_zero ‹_›))

theorem steps_sAwaitPage (hst : s.st = Code.awaitPage) : Steps .sAwaitPage s := by
  cases h : s.sdDone
  · exact ⟨_, exec_sAwaitPage_clear h, .polls hst h⟩
  · exact ⟨_, exec_sAwaitPage_set h, .chooses (.pageComplete hst h)⟩

theorem steps_sAwaitCsum (hst : s.st = Code.awaitCsum) : Steps .sAwaitCsum s := by
  refine ⟨_, exec_sAwaitCsum s, ?_⟩
  split
  · exact .chooses (.csumComplete hst ‹_›)
  · exact .chooses (.csumAwaited hst (by simpa using ‹¬ s.sdDone = true›))

theorem steps_sVerify (hst : s.st = Code.verify) : Steps .sVerify s := by
  refine ⟨_, exec_sVerify s, ?_⟩
  split
  · exact .chooses (.checksumsAgree hst ‹_›)
  · exact .chooses (.checksumsDiffer hst ‹_›)

theorem steps_sErase (hst : s.st = Code.erase) : Steps .sErase s := by
  by_cases ha : s.cursor.toNat % 1024 = 0
  · cases hl : s.nvLocked
    · obtain hr | hr := Nat.lt_or_ge s.cfg.val.flashEnd.toNat (s.cursor.toNat + 1024)
      · exact ⟨_, finish_nvErasePage_outOfRange _ ha hl hr, .stops _ (.eraseRefused hst (.inr (.inr hr)))⟩
      · exact ⟨_, finish_nvErasePage _ ha hl hr, .erase hst ha hr⟩
    · exact ⟨_, finish_nvErasePage_locked _ ha hl, .stops _ (.eraseRefused hst (.inr (.inl hl)))⟩
  · exact ⟨_, finish_nvErasePage_misaligned _ ha, .stops _ (.eraseRefused hst (.inl ha))⟩

theorem steps_sProgram (hst : s.st = Code.program) : Steps .sProgram s := by
  by_cases ha : (programAddr s).toNat % 4 = 0
  · cases hl : s.nvLocked
    · obtain hr | hr := Nat.lt_or_ge s.cfg.val.flashEnd.toNat ((programAddr s).toNat + 4)
      · exact ⟨_, finish_nvProgramWord_outOfRange _ ha hl hr, .stops _ (.programRefused hst (.inr (.inr hr)))⟩
      · by_cases he : readWord s.nvMem (programAddr s).toNat = some s.cfg.val.erased
        · exact ⟨_, exec_sProgram ha hl hr he, .program hst ha hr⟩
        · exact ⟨_, finish_nvProgramWord_notErased _ ha hl hr he, .stops _ (.notErased hst he)⟩
    · exact ⟨_, finish_nvProgramWord_locked _ ha hl, .stops _ (.programRefused hst (.inr (.inl hl)))⟩
  · exact ⟨_, finish_nvProgramWord_misaligned _ ha, .stops _ (.programRefused hst (.inl ha))⟩

theorem steps_sBootRead (hst : s.st = Code.bootRead) : Steps .sBootRead s := by
  obtain ⟨ha, hr⟩ := entryVectorAddr_inRange s
  cases hw : readWord s.nvMem (entryVectorAddr s).toNat with
  | some w => exact ⟨_, finish_nvRead32_some _ ha hr hw, .bootRead w s.draws hst⟩
  | none => exact ⟨_, finish_nvRead32_none _ ha hr hw, .bootRead _ _ hst⟩

end Operations

/-- The sequencer's turn always answers a next state, one that `SeqStep` lists (R9). -/
theorem sequencer_steps (s : State) : Steps (fetch s) s := by
  generalize hi : fetch s = i
  obtain ⟨hst, hspace⟩ := st_of_fetch hi
  cases i with
  | sSettleA => exact steps_settle rfl hst (.inl rfl) (.settledA hst)
  | sSettleF => exact steps_settle rfl hst (.inr rfl) (.settledF hst)
  | sAnnounce => exact steps_send hi rfl rfl (hst ▸ by decide) (.sends (.ready hst))
  | sAck => exact steps_send hi rfl rfl (hst ▸ by decide) (.sends (.ack hst))
  | sReqPage => exact steps_send hi rfl rfl (hst ▸ by decide) (.sends (.page hst))
  | sToTx => exact steps_send hi rfl rfl (hst ▸ by decide) (.sends (.timeout hst))
  | sReqCsum => exact steps_send hi rfl rfl (hst ▸ by decide) (.sends (.csum hst))
  | sErrTx => exact steps_send hi rfl rfl (hst ▸ by decide) (.sends (.error hst))
  | sDoneTx => exact steps_send hi rfl rfl (hst ▸ by decide) (.sendsDone hst)
  | sRecvMagic => exact steps_receive hi rfl rfl (.inl hst) fun _ _ hrx hl => .recvMagic hst hrx hl
  | sRecvCount => exact steps_receive hi rfl rfl (.inr hst) fun _ _ hrx hl => .recvCount hst hrx hl
  | sAuth => exact steps_sAuth hst
  | sLoopTest => exact steps_sLoopTest hst
  | sAwaitPage => exact steps_sAwaitPage hst
  | sAwaitCsum => exact steps_sAwaitCsum hst
  | sVerify => exact steps_sVerify hst
  | sErase => exact steps_sErase hst
  | sProgram => exact steps_sProgram hst
  | sBootRead => exact steps_sBootRead hst
  | sArmPage => exact ⟨_, rfl, .arms (.page hst)⟩
  | sToRearm => exact ⟨_, rfl, .arms (.again hst)⟩
  | sArmCsum => exact ⟨_, rfl, .arms (.csum hst)⟩
  | sUnlock => exact ⟨_, rfl, .unlock hst⟩
  | sSetTiming => exact ⟨_, rfl, .setTiming hst⟩
  | sCrcReset => exact ⟨_, rfl, .crcReset hst⟩
  | sCrcCalc => exact ⟨_, rfl, .crcCalc hst⟩
  | sAdvance => exact ⟨_, rfl, .advance hst⟩
  | sLock => exact ⟨_, rfl, .lock hst⟩
  | sDisable => exact ⟨_, rfl, .disable hst⟩
  | sBootVtbr => exact ⟨_, rfl, .bootVtbr hst⟩
  | sBootJump => exact ⟨_, rfl, .bootJump hst⟩
  | sHandoff => exact ⟨_, rfl, .stays (.inr hst)⟩
  | _ => cases hspace

/-! ## What the turn of any agent can do (R245) -/

/-- Every state a turn but the reset can leave. -/
inductive TurnStep (s : State) : Turn → State → Prop
  | sequencer {t : State} (h : SeqStep s t) : TurnStep s .sequencer t
  | idle : TurnStep s .driver s
  | took {b : Byte} {rest : List Byte} (ha : s.sdArmed = true) (hrx : s.rxEn = true) (hl : s.line = b :: rest)
      (hc : s.sdCnt < s.sdDest.size) : TurnStep s .driver { s with
        line := rest, sdCnt := s.sdCnt + 1,
        sdDone := if s.sdCnt + 1 = s.sdLen then true else s.sdDone,
        sdArmed := if s.sdCnt + 1 = s.sdLen then false else s.sdArmed,
        pageBuf := if s.sdDest = .pageBuf then setPageByte s.pageBuf s.sdCnt b else s.pageBuf,
        csumSlot := if s.sdDest = .csumSlot then setByteOf s.csumSlot s.sdCnt b else s.csumSlot }
  | host (b : Byte) : TurnStep s (.host b) { s with line := s.line ++ [b] }
  | dropped : TurnStep s .drop { s with line := s.line.tail }
  | nothingDropped : TurnStep s .drop s
  | transport (ready : Bool) : TurnStep s (.transport ready) { s with txReady := ready }

/-- The driver's step field by field (R203). -/
theorem driverTake_eq (b : Byte) (rest : List Byte) (s : State) : driverTake b rest s = { s with
    line := rest, sdCnt := s.sdCnt + 1,
    sdDone := if s.sdCnt + 1 = s.sdLen then true else s.sdDone,
    sdArmed := if s.sdCnt + 1 = s.sdLen then false else s.sdArmed,
    pageBuf := if s.sdDest = .pageBuf then setPageByte s.pageBuf s.sdCnt b else s.pageBuf,
    csumSlot := if s.sdDest = .csumSlot then setByteOf s.csumSlot s.sdCnt b else s.csumSlot } := by
  unfold driverTake storeStreamByte
  cases s.sdDest <;> dsimp only <;> split <;> rfl

theorem driverTurn_turnStep {s t : State} (h : driverTurn s = .next t) : TurnStep s .driver t := by
  obtain ⟨-, hd⟩ | ⟨b, rest, ha, hrx, hl, ⟨hc, hd⟩ | ⟨-, hd⟩⟩ := driverTurn_cases s <;> rw [hd] at h <;> cases h
  · exact .idle
  · exact driverTake_eq b rest s ▸ .took ha hrx hl hc

/-- A turn but the reset that answers a next state does what `TurnStep` lists, and no fault was recorded before it. -/
theorem turnStep_of_runTurn {u : Turn} {s t : State} (hu : u ≠ .reset) (h : runTurn u s = .next t) :
    s.fault = none ∧ TurnStep s u t := by
  have hf : s.fault = none := by
    cases hf : s.fault with
    | none => rfl
    | some r => cases u <;> simp_all [runTurn]
  refine ⟨hf, ?_⟩
  cases u with
  | sequencer =>
    obtain ⟨t', hx, hstep⟩ := sequencer_steps s
    cases hx.symm.trans (Interfaces.unlessFaulted_next h)
    exact .sequencer hstep
  | driver => exact driverTurn_turnStep (Interfaces.unlessFaulted_next h)
  | host b => cases Interfaces.unlessFaulted_next h; exact .host b
  | drop =>
    cases Interfaces.unlessFaulted_next h
    obtain ⟨-, hd⟩ | ⟨-, hd⟩ := dropTurn_cases s <;> rw [hd]
    · exact .dropped
    · exact .nothingDropped
  | transport ready => cases Interfaces.unlessFaulted_next h; exact .transport ready
  | reset => exact absurd rfl hu

/-- A turn leaves the script to the schedule and the valuation of the parameters as it is (log 1, log 2). -/
theorem TurnStep.script_eq {s t : State} {u : Turn} (h : TurnStep s u t) : t.script = s.script ∧ t.cfg = s.cfg := by
  cases h with
  | sequencer h => cases h <;> exact ⟨rfl, rfl⟩
  | _ => exact ⟨rfl, rfl⟩

/-- A step whose next event is a turn but the reset does what `TurnStep` lists, at the state with that turn used up. -/
theorem turnStep_of_step {s t : State} {u : Turn} (hn : (nextEvent s).1 = .turn u) (hu : u ≠ .reset)
    (h : step s = .next t) :
    s.fault = none ∧ ∃ sc n, TurnStep { s with script := sc, turnCount := n } u t := by
  obtain ⟨sc, n, hs⟩ := Interfaces.step_of_turn hn
  obtain ⟨hf, ht⟩ := turnStep_of_runTurn hu (hs ▸ h)
  exact ⟨hf, sc, n, ht⟩

/-- How a property of all runs from turns only is kept: it does not speak of the schedule, the reset gives it, and the
turn of each agent keeps it. -/
theorem step_keeps {P : State → Prop}
    (schedule : ∀ (s : State) (sc : List Event) (n : Nat), (∀ e ∈ sc, ∃ u, e = Event.turn u) → P s →
      P { s with script := sc, turnCount := n })
    (reset : ∀ s, P s → P (resetEvent s))
    (turn : ∀ (s t : State) (u : Turn), TurnStep s u t → P s → P t)
    {s t : State} (hs : NoTransactions s) (hp : P s) (h : step s = .next t) : P t := by
  obtain ⟨u, sc, n, hsc, hstep⟩ := step_turn hs
  have hp' := schedule s sc n hsc hp
  rw [hstep] at h
  by_cases hu : u = .reset
  · subst hu
    cases h
    exact reset _ hp'
  · exact turn _ t u (turnStep_of_runTurn hu h).2 hp'

end Sys2Proof.Turns

/-! PROOFS about the encodings (`30_encoding.md` R70 to R79, `20_memory.md` R44): the two round trips, and the byte
order of the page buffer. -/

namespace Sys2Proof.Encoding

open Sys2Proof Sys2Proof.Machine Sys2Proof.Laws

/-- Settles O9: one round-trip lemma of `Laws` for each instruction; one without an operand evaluates. -/
theorem decodeReadsBackEveryEncoding : Obligations.DecodeReadsBackEveryEncoding := by
  intro i
  cases i with
  | pageFrame b => exact RoundTrip.pageFrame b
  | csumFrame c => exact RoundTrip.csumFrame c
  | sdArm dest len => exact RoundTrip.sdArm dest len
  | nvSetTiming v => exact RoundTrip.nvSetTiming v
  | nvErasePage addr => exact RoundTrip.nvErasePage addr
  | nvProgramWord addr data => exact RoundTrip.nvProgramWord addr data
  | nvRead32 addr => exact RoundTrip.nvRead32 addr
  | sysSetVtbr addr => exact RoundTrip.sysSetVtbr addr
  | sysJump entry => exact RoundTrip.sysJump entry
  | _ => exact fun _ => rfl

/-! ## What each part of the decoder accepts -/

/-- The instruction is of the space and its bytes are these. -/
def Reads (sp : Space) (bs : List Byte) (i : Instr) : Prop := i.space = sp ∧ encode i = bs

theorem leBytes_leWord (b0 b1 b2 b3 : Byte) : leBytes (leWord b0 b1 b2 b3) = [b0, b1, b2, b3] := by
  simp [leBytes]

theorem reads_decodeSymbol {b : Byte} {i : Instr} (h : decodeSymbol b = .ok i) : Reads .d2h [b] i := by
  unfold decodeSymbol at h
  split_ifs at h <;> cases h <;> subst_vars <;> exact ⟨rfl, rfl⟩

theorem reads_decodeFrame {k : FrameKind} {bs : List Byte} {i : Instr} (h : decodeFrame k bs = .ok i) :
    Reads (.h2d k) bs i := by
  unfold decodeFrame at h
  split at h
  · cases h; exact ⟨rfl, rfl⟩
  · cases h; exact ⟨rfl, rfl⟩
  · cases h; exact ⟨rfl, leBytes_leWord _ _ _ _⟩
  · split at h <;> cases h
    exact ⟨rfl, rfl⟩
  · cases h

/-- A byte with its upper three bits clear is its lower five. -/
theorem setWidth_extractLsb'_of_high_clear {b : Byte} (h : b.extractLsb' 5 3 = 0#3) :
    (b.extractLsb' 0 5).setWidth 8 = b := by
  revert b
  decide

theorem reads_decodeState {b : Byte} (h : b.extractLsb' 5 3 = 0#3) :
    Reads .state [b] (decodeState (b.extractLsb' 0 5)) := by
  have codes : ∀ c : BitVec 5, (decodeState c).space = .state ∧ encode (decodeState c) = [c.setWidth 8] := by decide
  have hc := codes (b.extractLsb' 0 5)
  rwa [setWidth_extractLsb'_of_high_clear h] at hc

section Port

variable {code c : Byte} {ops : List Byte} {i j : Instr}

/-- A port command without operand bytes. -/
theorem reads_noOperand (hi : Reads .port [c] i) (hc : code = c) (h : noOperand i ops = .ok j) :
    Reads .port (code :: ops) j := by
  subst hc
  cases ops <;> cases h
  exact hi

/-- A port command with one word beside its code. -/
theorem reads_wordOperand {f : Word → Instr} (hf : ∀ w, Reads .port (c :: leBytes w) (f w)) (hc : code = c)
    (h : wordOperand f ops = .ok j) : Reads .port (code :: ops) j := by
  subst hc
  unfold wordOperand at h
  split at h <;> cases h
  exact leBytes_leWord _ _ _ _ ▸ hf _

end Port

/-- The bits of the operand field of an arm: `dest`, then `len`, then zeros (R79). -/
theorem getLsbD_armField (dest : Dest) (len : BitVec 11) (i : Nat) : (armField dest len).getLsbD i =
    if i < 1 then (dest == .csumSlot) else if i - 1 < 11 then len.getLsbD (i - 1) else false := by
  cases dest
  all_goals
    show BitVec.getLsbD (w := 4 + 11 + 1) (0#4 ++ len ++ _) i = _
    simp only [BitVec.getLsbD_append]
    split
    · obtain rfl : i = 0 := by omega
      rfl
    · simp

/-- The operand field of an arm holds every bit that the decoder accepts (R79). -/
theorem armField_of_bytes {b0 b1 : Byte} (h : b1.extractLsb' 4 4 = 0#4) :
    armField (if b0.getLsbD 0 then .csumSlot else .pageBuf) ((b1 ++ b0).extractLsb' 1 11) = b1 ++ b0 := by
  have top : ∀ i, 4 ≤ i → b1.getLsbD i = false := by
    intro i hi
    by_cases h8 : i < 8
    · have hbit := congrArg (BitVec.getLsbD · (i - 4)) h
      simpa [show i - 4 < 4 by omega, show 4 + (i - 4) = i by omega] using hbit
    · exact BitVec.getLsbD_of_ge _ _ (by omega)
  apply BitVec.eq_of_getLsbD_eq
  intro i hi
  rw [getLsbD_armField, BitVec.getLsbD_append]
  by_cases h0 : i < 1
  · obtain rfl : i = 0 := by omega
    cases hb : b0.getLsbD 0 <;> simp
  · by_cases h12 : i - 1 < 11
    · rw [if_neg h0, if_pos h12, BitVec.getLsbD_extractLsb', show 1 + (i - 1) = i by omega, BitVec.getLsbD_append]
      simp [h12]
    · simp [h0, h12, show ¬ i < 8 by omega, top (i - 8) (by omega)]

theorem reads_armOperand {ops : List Byte} {j : Instr} (h : armOperand ops = .ok j) :
    Reads .port (PortCode.sdArm :: ops) j := by
  unfold armOperand at h
  split at h
  · next b0 b1 =>
    split at h <;> cases h
    refine ⟨rfl, ?_⟩
    have low : (b1 ++ b0).extractLsb' 0 8 = b0 := BitVec.extractLsb'_append_eq_right
    have high : (b1 ++ b0).extractLsb' 8 8 = b1 := BitVec.extractLsb'_append_eq_left
    simp only [encode, armField_of_bytes ‹_›, low, high]
  · cases h

/-- One branch of a decoder that compares codes in turn. -/
theorem of_ite_eq {α : Type} {c R : Prop} [Decidable c] {a b v : α} (h : (if c then a else b) = v)
    (ha : c → a = v → R) (hb : b = v → R) : R := by
  split at h
  · exact ha ‹_› h
  · exact hb h

theorem reads_decodePort {code : Byte} {ops : List Byte} {i : Instr} (h : decodePort code ops = .ok i) :
    Reads .port (code :: ops) i := by
  refine of_ite_eq h ?txSend fun h => ?_
  case txSend =>
    rintro rfl h
    split at h <;> cases h
    exact ⟨rfl, rfl⟩
  refine of_ite_eq h (reads_noOperand ⟨rfl, rfl⟩) fun h => ?_
  refine of_ite_eq h (reads_noOperand ⟨rfl, rfl⟩) fun h => ?_
  refine of_ite_eq h (by rintro rfl; exact reads_armOperand) fun h => ?_
  refine of_ite_eq h (reads_noOperand ⟨rfl, rfl⟩) fun h => ?_
  refine of_ite_eq h (reads_noOperand ⟨rfl, rfl⟩) fun h => ?_
  refine of_ite_eq h (reads_noOperand ⟨rfl, rfl⟩) fun h => ?_
  refine of_ite_eq h (reads_noOperand ⟨rfl, rfl⟩) fun h => ?_
  refine of_ite_eq h (reads_wordOperand fun _ => ⟨rfl, rfl⟩) fun h => ?_
  refine of_ite_eq h (reads_wordOperand fun _ => ⟨rfl, rfl⟩) fun h => ?_
  refine of_ite_eq h ?nvProgramWord fun h => ?_
  case nvProgramWord =>
    rintro rfl h
    split at h <;> cases h
    refine ⟨rfl, ?_⟩
    simp only [encode, leBytes_leWord, List.cons_append, List.nil_append]
  refine of_ite_eq h (reads_noOperand ⟨rfl, rfl⟩) fun h => ?_
  refine of_ite_eq h (reads_wordOperand fun _ => ⟨rfl, rfl⟩) fun h => ?_
  refine of_ite_eq h (reads_wordOperand fun _ => ⟨rfl, rfl⟩) fun h => ?_
  refine of_ite_eq h (reads_wordOperand fun _ => ⟨rfl, rfl⟩) fun h => ?_
  cases h

/-- Settles O10: what each part of the decoder accepts is what the encoder writes. -/
theorem encodeReadsBackEveryDecoding : Obligations.EncodeReadsBackEveryDecoding := by
  intro sp bs i h
  unfold decode at h
  split at h
  · exact reads_decodeSymbol h
  · exact reads_decodeFrame h
  · split at h <;> cases h
    exact reads_decodeState ‹_›
  · exact reads_decodePort h
  · cases h

/-- Settles O8: the words of the tables evaluate. -/
theorem tableWordsDecode : Obligations.TableWordsDecode := by
  refine ⟨rfl, rfl, rfl, rfl, rfl, rfl, rfl, rfl, rfl, rfl⟩

/-! ## The page buffer's bytes (R44) -/

theorem pageByte_word (buf : Vector Word 256) {i k : Nat} (hi : i < 256) (hk : k < 4) :
    pageByte buf (4 * i + k) = some (byteOf buf[i] k) := by
  have hq : (4 * i + k) / 4 = i := by omega
  have hr : (4 * i + k) % 4 = k := by omega
  simp [pageByte, hq, hr, hi]

/-- Settles O11: a word is the little-endian word of its four bytes. -/
theorem pageBufferWordsAreLittleEndian : Obligations.PageBufferWordsAreLittleEndian := by
  intro buf i
  have byte : ∀ k, k < 4 → pageByte buf (4 * i.val + k) = some (byteOf buf[i.val] k) :=
    fun k hk => pageByte_word buf i.isLt hk
  refine ⟨byte, fun b0 b1 b2 b3 h0 h1 h2 h3 => ?_⟩
  obtain rfl := Option.some.inj ((byte 0 (by decide)).symm.trans h0)
  obtain rfl := Option.some.inj ((byte 1 (by decide)).symm.trans h1)
  obtain rfl := Option.some.inj ((byte 2 (by decide)).symm.trans h2)
  obtain rfl := Option.some.inj ((byte 3 (by decide)).symm.trans h3)
  exact (leWord_byteOf _).symm

end Sys2Proof.Encoding

/-! PROOFS of the invariants of the driver, the phase and the session (`44_interfaces.md` R200, `20_memory.md` R57,
`10_state.md` R32). Each invariant speaks of `st` through windows of codes, so an edge of the transition table that
stays inside them keeps it; the other edges are looked at one by one. -/

namespace Sys2Proof.Invariants

open Sys2Proof Sys2Proof.Machine Sys2Proof.Laws Sys2Proof.Turns

variable {s t : State} {u : Turn}

/-! ## Windows of codes, and the edges of the operations that share an effect (R77) -/

/-- The code lies between two codes, ends included: `State.within` of the code alone. -/
abbrev win (c : BitVec 5) (a b : Nat) : Prop := a ≤ c.toNat ∧ c.toNat ≤ b

/-- Where the tests go, from and to. -/
def chooseEdges : List (BitVec 5 × BitVec 5) :=
  [(Code.settleA, Code.announce), (Code.settleF, Code.disable), (Code.auth, Code.ack), (Code.auth, Code.doneTx),
    (Code.loopTest, Code.crcReset), (Code.loopTest, Code.lock), (Code.awaitPage, Code.crcCalc),
    (Code.awaitCsum, Code.verify), (Code.awaitCsum, Code.awaitCsum), (Code.verify, Code.erase),
    (Code.verify, Code.errTx)]

/-- Where the sends but `S_DONE_TX` go, from and to. -/
def sendEdges : List (BitVec 5 × BitVec 5) :=
  [(Code.announce, Code.recvMagic), (Code.ack, Code.recvCount), (Code.reqPage, Code.awaitPage),
    (Code.toTx, Code.awaitPage), (Code.reqCsum, Code.awaitCsum), (Code.errTx, Code.loopTest)]

/-- Where the arms go, from and to. -/
def armEdges : List (BitVec 5 × BitVec 5) :=
  [(Code.armPage, Code.reqPage), (Code.toRearm, Code.toTx), (Code.armCsum, Code.reqCsum)]

theorem mem_chooseEdges {c : BitVec 5} (h : Chooses s c) : (s.st, c) ∈ chooseEdges := by
  cases h with
  | settledA hst | settledF hst | authentic hst | notAuthentic hst | nextPage hst | noMorePages hst | pageComplete hst
  | csumComplete hst | csumAwaited hst | checksumsAgree hst | checksumsDiffer hst => simp [chooseEdges, hst]

theorem mem_sendEdges {b : Byte} {c : BitVec 5} (h : Sends s b c) : (s.st, c) ∈ sendEdges := by
  cases h with
  | ready hst | ack hst | page hst | timeout hst | csum hst | error hst => simp [sendEdges, hst]

theorem mem_armEdges {d : Dest} {c : BitVec 5} (h : Arms s d c) : (s.st, c) ∈ armEdges := by
  cases h with
  | page hst | again hst | csum hst => simp [armEdges, hst]

/-! ## The driver (R200) -/

theorem driverOk_initial (p : Params) : DriverOk (State.initial p) := by
  simp [DriverOk, State.initial]

theorem driverOk_took {b : Byte} {rest : List Byte} (ha : s.sdArmed = true) (h : DriverOk s) :
    DriverOk (driverTake b rest s) := by
  obtain ⟨harmed, -, hlen⟩ := h
  obtain ⟨hcnt, hdone⟩ := harmed ha
  by_cases hlast : s.sdCnt + 1 = s.sdLen
  · simp [DriverOk, hlast, hlen]
  · simp [DriverOk, hlast, hdone]
    omega

theorem driverOk_turn (h : TurnStep s u t) (hd : DriverOk s) : DriverOk t := by
  cases h with
  | sequencer h =>
    cases h with
    | arms h => cases h <;> simp [DriverOk]
    | _ => exact hd
  | took ha => exact driverTake_eq _ _ s ▸ driverOk_took ha hd
  | _ => exact hd

theorem noTransactions_turn (h : TurnStep s u t) (hn : NoTransactions s) : NoTransactions t := by
  obtain ⟨hscript, -⟩ := h.script_eq
  exact fun e he => hn e (hscript ▸ he)

/-- Settles O54: an arm starts below its length, and the byte that completes the transfer sets the flag and disarms. -/
theorem stepKeepsTheDriverState : Obligations.StepKeepsTheDriverState := fun _ _ hn hd =>
  step_keeps (P := fun s => NoTransactions s ∧ DriverOk s) (fun _ _ _ hsc h => ⟨hsc, h.2⟩)
    (fun s h => ⟨h.1, driverOk_initial s.cfg⟩)
    (fun _ _ _ ht h => ⟨noTransactions_turn ht h.1, driverOk_turn ht h.2⟩) hn ⟨hn, hd⟩

/-! ## The phase (R28, R57, R150, R193) -/

theorem phaseOk_initial (p : Params) : PhaseOk (State.initial p) := by
  simp [PhaseOk, State.within, State.initial]

/-- The edge crosses no window of the phase. -/
abbrev samePhase (a c : BitVec 5) : Prop :=
  (win a 7 24 ↔ win c 7 24) ∧ (win a 0 27 ↔ win c 0 27) ∧ (win c 8 24 → win a 8 24) ∧ (win c 0 7 → win a 0 7) ∧
  (win c 0 30 → win a 0 30) ∧ (win c 30 31 → win a 30 31) ∧ (win c 31 31 → win a 31 31)

theorem phaseOk_move {c : BitVec 5} (h : samePhase s.st c) (hp : PhaseOk s) : PhaseOk { s with st := c } := by
  obtain ⟨hlock, hrx, htx, hset, hunset, hhand, hvtbr, hover⟩ := hp
  obtain ⟨hl, he, hs, hu, hh, hv, ho⟩ := h
  exact ⟨hlock.trans hl, hrx.trans he, htx.trans he, hset ∘ hs, hunset ∘ hu, hhand ∘ hh, hvtbr ∘ hv, hover ∘ ho⟩

/-- An operation that crosses a window issues the command which that window speaks of; every other one stays inside. -/
theorem phaseOk_sequencer (h : SeqStep s t) (hp : PhaseOk s) : PhaseOk t := by
  have choose : ∀ e ∈ chooseEdges, samePhase e.1 e.2 := by simp [chooseEdges, samePhase, win]
  have send : ∀ e ∈ sendEdges, samePhase e.1 e.2 := by simp [sendEdges, samePhase, win]
  have arm : ∀ e ∈ armEdges, samePhase e.1 e.2 := by simp [armEdges, samePhase, win]
  cases h with
  | stays | stops | settling => exact hp
  | chooses h => exact phaseOk_move (choose _ (mem_chooseEdges h)) hp
  | sends h => exact phaseOk_move (send _ (mem_sendEdges h)) hp
  | arms h => exact phaseOk_move (arm _ (mem_armEdges h)) hp
  | recvMagic hst | recvCount hst | crcReset hst | crcCalc hst | erase hst | sendsDone hst =>
    exact phaseOk_move (by simp [samePhase, win, hst]) hp
  | polls hst | program hst =>
    refine phaseOk_move (s := s) ?_ hp
    split <;> simp [samePhase, win, hst]
  | unlock hst | setTiming hst | advance hst | lock hst | disable hst | bootVtbr hst | bootJump hst =>
    simp only [PhaseOk, State.within, hst] at hp ⊢
    simp_all
  | bootRead w n hst =>
    simp only [PhaseOk, State.within, hst] at hp ⊢
    simp_all

theorem phaseOk_turn (h : TurnStep s u t) (hp : PhaseOk s) : PhaseOk t := by
  cases h with
  | sequencer h => exact phaseOk_sequencer h hp
  | _ => exact hp

/-- Settles O55. -/
theorem stepKeepsThePhase : Obligations.StepKeepsThePhase := fun _ _ hn hp =>
  step_keeps (P := PhaseOk) (fun _ _ _ _ h => h) (fun s _ => phaseOk_initial s.cfg) (fun _ _ _ => phaseOk_turn) hn hp

/-! ## The session (R32) -/

theorem sessionOk_initial (p : Params) : SessionOk (State.initial p) := by
  simp [SessionOk, State.within, State.initial]

/-- The edge crosses no window of the session. -/
abbrev sameSession (a c : BitVec 5) : Prop :=
  (win c 6 24 → win a 6 24) ∧ (win c 25 31 → win a 24 31) ∧ (win c 9 23 → win a 9 23) ∧ (win c 24 24 → win a 24 24)

theorem sessionOk_move {c : BitVec 5} (h : sameSession s.st c) (hs : SessionOk s) :
    SessionOk { s with st := c } := by
  obtain ⟨hexists, hbody, hafter⟩ := hs
  obtain ⟨h1, h2, h3, h4⟩ := h
  have later : win c 25 31 → s.nvTiming ≠ none → win s.st 24 24 ∨ (win s.st 25 31 ∧ s.nvTiming ≠ none) := by
    intro hc ht
    have := h2 hc
    by_cases h24 : s.st.toNat = 24
    · exact .inl ⟨by omega, by omega⟩
    · exact .inr ⟨⟨by omega, by omega⟩, ht⟩
  refine ⟨?_, fun hc => hbody (h3 hc), ?_⟩
  · rintro (hc | ⟨hc, ht⟩)
    · exact hexists (.inl (h1 hc))
    · exact hexists ((later hc ht).imp_left fun h => ⟨h.1.trans' (by decide), h.2⟩)
  · rintro (hc | ⟨hc, ht⟩)
    · exact hafter (.inl (h4 hc))
    · exact hafter (later hc ht)

/-- A page is counted off: neither the cursor nor the page count wraps (R7, R153). -/
theorem sessionOk_advance (hst : s.st = Code.advance) (hs : SessionOk s) :
    SessionOk { s with cursor := s.cursor + 1024#32, remaining := s.remaining - 1#8, st := Code.loopTest } := by
  obtain ⟨hexists, hbody, -⟩ := hs
  obtain ⟨hle, hcursor⟩ := hexists (.inl (by simp [State.within, hst]))
  have hpos := hbody (by simp [State.within, hst])
  have hrx := s.rxByte.isLt
  obtain ⟨-, hroom, -⟩ := s.cfg.ok
  have hrem : (s.remaining - 1#8).toNat = s.remaining.toNat - 1 := by bv_omega
  have hcur : (s.cursor + 1024#32).toNat = s.cursor.toNat + 1024 := by
    simp only [BitVec.toNat_add, BitVec.toNat_ofNat]
    omega
  refine ⟨fun _ => ?_, ?_, ?_⟩
  · simp only [hrem, hcur, hcursor]
    omega
  · simp [State.within]
  · simp [State.within]

theorem sessionOk_chooses {c : BitVec 5} (h : Chooses s c) (hp : PhaseOk s) (hs : SessionOk s) :
    SessionOk { s with st := c } := by
  cases h with
  | notAuthentic hst =>
    obtain ⟨-, -, -, -, hunset, -⟩ := hp
    have ht : s.nvTiming = none := hunset (by simp [State.within, hst])
    simp [SessionOk, State.within, ht]
  | nextPage hst h =>
    obtain ⟨hexists, -⟩ := hs
    have := hexists (.inl (by simp [State.within, hst]))
    exact ⟨fun _ => this, fun _ => h, by simp [State.within]⟩
  | noMorePages hst h =>
    obtain ⟨hexists, -⟩ := hs
    have := hexists (.inl (by simp [State.within, hst]))
    exact ⟨fun _ => this, by simp [State.within], fun _ => h⟩
  | settledA hst | settledF hst | authentic hst | pageComplete hst | csumComplete hst | csumAwaited hst
  | checksumsAgree hst | checksumsDiffer hst => exact sessionOk_move (by simp [sameSession, win, hst]) hs

theorem sessionOk_sequencer (h : SeqStep s t) (hp : PhaseOk s) (hs : SessionOk s) : SessionOk t := by
  have send : ∀ e ∈ sendEdges, sameSession e.1 e.2 := by simp [sendEdges, sameSession, win]
  have arm : ∀ e ∈ armEdges, sameSession e.1 e.2 := by simp [armEdges, sameSession, win]
  cases h with
  | stays | stops | settling => exact hs
  | chooses h => exact sessionOk_chooses h hp hs
  | sends h => exact sessionOk_move (send _ (mem_sendEdges h)) hs
  | arms h => exact sessionOk_move (arm _ (mem_armEdges h)) hs
  | recvMagic hst => simp [SessionOk, State.within]
  | recvCount hst => simp [SessionOk, State.within]
  | bootRead w n hst => exact sessionOk_move (by simp [sameSession, win, hst]) hs
  | setTiming hst =>
    obtain ⟨hexists, -⟩ := hs
    have := hexists (.inl (by simp [State.within, hst]))
    exact ⟨fun _ => this, by simp [State.within], by simp [State.within]⟩
  | advance hst => exact sessionOk_advance hst hs
  | polls hst | program hst =>
    refine sessionOk_move (s := s) ?_ hs
    split <;> simp [sameSession, win, hst]
  | unlock hst | crcReset hst | crcCalc hst | erase hst | lock hst | sendsDone hst | disable hst | bootVtbr hst
  | bootJump hst => exact sessionOk_move (by simp [sameSession, win, hst]) hs

theorem sessionOk_turn (h : TurnStep s u t) (hp : PhaseOk s) (hs : SessionOk s) : SessionOk t := by
  cases h with
  | sequencer h => exact sessionOk_sequencer h hp hs
  | _ => exact hs

/-- Settles O56. -/
theorem stepKeepsTheSession : Obligations.StepKeepsTheSession := fun _ _ hn hp hs h =>
  (step_keeps (P := fun s => PhaseOk s ∧ SessionOk s) (fun _ _ _ _ h => h)
    (fun s _ => ⟨phaseOk_initial s.cfg, sessionOk_initial s.cfg⟩)
    (fun _ _ _ ht h => ⟨phaseOk_turn ht h.1, sessionOk_turn ht h.1 h.2⟩) hn ⟨hp, hs⟩ h).2

end Sys2Proof.Invariants

/-! PROOFS of the form of storage, under every step (`10_state.md` R27, `44_interfaces.md` R211 to R213). -/

namespace Sys2Proof.Storage

open Sys2Proof Sys2Proof.Machine Sys2Proof.Laws Sys2Proof.Turns

variable {s : State}

/-! ## Storage content stays in its form -/

theorem memoryOk_erasePage (h : MemoryOk s) {a : Nat} (ha : a + 1024 ≤ s.cfg.val.flashEnd.toNat) (w : Word) :
    MemoryOk { s with nvMem := erasePage s.nvMem a w } := by
  obtain ⟨hwf, hlow⟩ := h
  refine ⟨wf_erasePage hwf a w, fun c hc => ?_⟩
  obtain ⟨-, hc⟩ | hc := mem_erasePage hc
  · exact hc.trans_le ha
  · exact hlow c hc

theorem memoryOk_writeWord (h : MemoryOk s) {a : Nat} (ha : a + 4 ≤ s.cfg.val.flashEnd.toNat) (w : Word) :
    MemoryOk { s with nvMem := writeWord s.nvMem a w } := by
  obtain ⟨hwf, hlow⟩ := h
  refine ⟨wf_writeWord hwf a w, fun c hc => ?_⟩
  obtain ⟨-, hc⟩ | hc := mem_writeWord hc
  · exact hc.trans_le ha
  · exact hlow c hc

theorem memoryOk_forget (h : MemoryOk s) (a n : Nat) : MemoryOk { s with nvMem := forget s.nvMem a n } :=
  ⟨wf_forget h.1 a n, fun c hc => h.2 c (mem_forget.1 hc).1⟩

/-! ## Transactions and instructions -/

/-- However the transaction ends, storage is in its form. -/
def TxnMemoryOk {α : Type} : Txn α → Prop
  | .done _ u => MemoryOk u
  | .waits => True
  | .faults _ u => MemoryOk u

/-- If the outcome is a next state, storage is in its form there. -/
def OutcomeMemoryOk (o : Host.Outcome State Fault Refusal) : Prop := ∀ t, o = .next t → MemoryOk t

theorem outcomeMemoryOk_next (h : MemoryOk s) : OutcomeMemoryOk (.next s) := by
  rintro _ ⟨⟩
  exact h

theorem outcomeMemoryOk_finish {α : Type} {x : Txn α} {k : α → State → State} (hs : MemoryOk s) (hx : TxnMemoryOk x)
    (hk : ∀ a u, MemoryOk u → MemoryOk (k a u)) : OutcomeMemoryOk (x.finish s k) := by
  intro t h
  obtain ⟨a, u, rfl, rfl⟩ | ⟨-, rfl⟩ | ⟨r, u, rfl, rfl⟩ := finish_next h
  · exact hk a u hx
  · exact hs
  · exact hx

theorem txnMemoryOk_txSend (b : Byte) (hs : MemoryOk s) : TxnMemoryOk (txSend b s) := by
  obtain ⟨-, h⟩ | ⟨-, -, h⟩ | ⟨-, -, h⟩ := txSend_cases b s <;> rw [h]
  · exact hs
  · exact trivial
  · exact hs

theorem txnMemoryOk_rxRecv (hs : MemoryOk s) : TxnMemoryOk (rxRecv s) := by
  obtain ⟨-, h⟩ | ⟨-, -, h⟩ | ⟨b, rest, -, -, -, h⟩ := rxRecv_cases s <;> rw [h]
  · exact hs
  · exact trivial
  · exact hs

theorem txnMemoryOk_nvErasePage (a : Word) (hs : MemoryOk s) : TxnMemoryOk (nvErasePage a s) := by
  obtain ⟨-, h⟩ | ⟨-, -, h⟩ | ⟨-, -, -, h⟩ | ⟨-, -, hr, h⟩ := nvErasePage_cases a s <;> rw [h]
  · exact hs
  · exact hs
  · exact hs
  · exact memoryOk_erasePage hs hr _

theorem txnMemoryOk_nvProgramWord (a d : Word) (hs : MemoryOk s) : TxnMemoryOk (nvProgramWord a d s) := by
  obtain ⟨-, h⟩ | ⟨-, -, h⟩ | ⟨-, -, -, h⟩ | ⟨-, -, -, -, h⟩ | ⟨-, -, hr, -, h⟩ := nvProgramWord_cases a d s <;> rw [h]
  · exact hs
  · exact hs
  · exact hs
  · exact memoryOk_forget hs _ _
  · exact memoryOk_writeWord hs hr _

theorem txnMemoryOk_nvRead32 (a : Word) (hs : MemoryOk s) : TxnMemoryOk (nvRead32 a s) := by
  obtain ⟨-, h⟩ | ⟨-, -, h⟩ | ⟨w, -, -, -, h⟩ | ⟨-, -, -, h⟩ := nvRead32_cases a s <;> rw [h] <;> exact hs

/-- Every instruction leaves storage in its form: the erases and programs check their range, no other one writes it. -/
theorem outcomeMemoryOk_exec (i : Instr) (hs : MemoryOk s) : OutcomeMemoryOk (exec i s) := by
  cases i with
  | symReady | symAck | symPage | symTimeout | symCsum | symError | symDone | txSend
  | sAnnounce | sAck | sReqPage | sToTx | sReqCsum | sErrTx | sDoneTx =>
    exact outcomeMemoryOk_finish hs (txnMemoryOk_txSend _ hs) fun _ _ h => h
  | sRecvMagic | sRecvCount | rxRecv => exact outcomeMemoryOk_finish hs (txnMemoryOk_rxRecv hs) fun _ _ h => h
  | sErase | nvErasePage => exact outcomeMemoryOk_finish hs (txnMemoryOk_nvErasePage _ hs) fun _ _ h => h
  | sProgram | nvProgramWord => exact outcomeMemoryOk_finish hs (txnMemoryOk_nvProgramWord _ _ hs) fun _ _ h => h
  | sBootRead | nvRead32 => exact outcomeMemoryOk_finish hs (txnMemoryOk_nvRead32 _ hs) fun _ _ h => h
  | sSettleA | sSettleF =>
    refine outcomeMemoryOk_next ?_
    obtain ⟨-, h⟩ | ⟨-, h⟩ := settle_cases _ _ s <;> rw [h] <;> exact hs
  | sAuth => exact exec_sAuth s ▸ outcomeMemoryOk_next hs
  | sVerify => exact exec_sVerify s ▸ outcomeMemoryOk_next hs
  | sAwaitPage =>
    cases h : s.sdDone
    · exact exec_sAwaitPage_clear h ▸ outcomeMemoryOk_next hs
    · exact exec_sAwaitPage_set h ▸ outcomeMemoryOk_next hs
  | magicFrame | countFrame | pageFrame | csumFrame
  | sUnlock | sSetTiming | sLoopTest | sCrcReset | sArmPage | sToRearm | sCrcCalc | sArmCsum | sAwaitCsum | sAdvance
  | sLock | sDisable | sBootVtbr | sBootJump | sHandoff
  | trDisable | sdArm | sdDone | ckReset | ckBlock | nvUnlock | nvSetTiming | nvLock | sysSetVtbr | sysJump =>
    exact outcomeMemoryOk_next hs

/-! ## Steps -/

theorem memoryOk_resetEvent (hs : MemoryOk s) : MemoryOk (resetEvent s) := by
  show MemoryOk { s with nvMem := memoryAfterReset s }
  unfold memoryAfterReset
  split
  · exact memoryOk_forget hs _ _
  · exact hs

theorem outcomeMemoryOk_unlessFaulted {o : Host.Outcome State Fault Refusal} (h : OutcomeMemoryOk o) :
    OutcomeMemoryOk (unlessFaulted s o) := fun t ht => h t (Interfaces.unlessFaulted_next ht)

theorem memoryOk_turn {t : State} {u : Turn} (h : TurnStep s u t) (hs : MemoryOk s) : MemoryOk t := by
  cases h with
  | sequencer h =>
    cases h with
    | stops _ h =>
      cases h with
      | notErased => exact memoryOk_forget hs _ _
      | _ => exact hs
    | erase _ _ hr => exact memoryOk_erasePage hs hr _
    | program _ _ hr => exact memoryOk_writeWord hs hr _
    | _ => exact hs
  | _ => exact hs

theorem outcomeMemoryOk_runTurn (u : Turn) (hs : MemoryOk s) : OutcomeMemoryOk (runTurn u s) := by
  intro t h
  by_cases hu : u = .reset
  · subst hu
    cases h
    exact memoryOk_resetEvent hs
  · exact memoryOk_turn (turnStep_of_runTurn hu h).2 hs

theorem outcomeMemoryOk_runEvent (e : Event) (hs : MemoryOk s) : OutcomeMemoryOk (runEvent e s) := by
  cases e with
  | turn u => exact outcomeMemoryOk_runTurn u hs
  | transaction sp bs =>
    refine outcomeMemoryOk_unlessFaulted ?_
    split
    · exact outcomeMemoryOk_exec _ hs
    · rintro _ ⟨⟩

/-- Settles O53. -/
theorem stepKeepsTheMemoryForm : Obligations.StepKeepsTheMemoryForm := by
  intro s t hs h
  refine outcomeMemoryOk_runEvent (nextEvent s).1 ?_ t h
  obtain ⟨e, rest, -, hn⟩ | ⟨-, hn⟩ := nextEvent_cases s <;> rw [hn] <;> exact hs

end Sys2Proof.Storage

/-! PROOFS of the invariants of the counters, the transfer, the gate and the commit, of all invariants together, and of
what they rule out (`10_state.md` R12, R16, `41_page_stream.md` R132, `42_flash_commit.md` R155, R156). -/

namespace Sys2Proof.Invariants

open Sys2Proof Sys2Proof.Machine Sys2Proof.Laws Sys2Proof.Turns

variable {s t : State} {u : Turn}

/-! ## The counters (R12, R16) -/

theorem countersOk_initial (p : Params) : CountersOk (State.initial p) := by
  have := loads_fit p
  simp [CountersOk, State.within, State.initial, this]

/-- The edge keeps what the counters' window says: the budget is 0 at `S_TO_REARM` only. -/
abbrev sameCounters (a c : BitVec 5) : Prop := win c 11 23 → win a 11 23 ∧ (win a 13 13 ↔ win c 13 13)

theorem countersOk_move {c : BitVec 5} (h : sameCounters s.st c) (hc : CountersOk s) :
    CountersOk { s with st := c } := by
  obtain ⟨hdly, hbudget, hdw, hbw, hzero⟩ := hc
  refine ⟨hdly, hbudget, hdw, hbw, fun hw => ?_⟩
  obtain ⟨ha, hiff⟩ := h hw
  have rearms : ∀ a : BitVec 5, a = Code.toRearm ↔ win a 13 13 := by decide
  exact (hzero ha).trans ((rearms s.st).trans (hiff.trans (rearms c).symm))

/-- A load of the budget at an arm (C3). -/
theorem countersOk_loaded {c : BitVec 5} (h : c ≠ Code.toRearm) (hc : CountersOk s) :
    CountersOk { s with budget := s.cfg.val.timeoutInit, st := c } := by
  obtain ⟨hdly, -, hdw, -⟩ := hc
  obtain ⟨-, -, -, -, -, hpos, -⟩ := s.cfg.ok
  refine ⟨hdly, le_rfl, hdw, (loads_fit s.cfg).1, fun _ => ⟨fun h0 => ?_, fun hst => absurd hst h⟩⟩
  exact absurd h0 (by show s.cfg.val.timeoutInit ≠ 0; omega)

/-- A poll with the flag clear: the budget does not wrap, and 0 means that the timeout is raised (R125). -/
theorem countersOk_polls (hst : s.st = Code.awaitPage) (hc : CountersOk s) : CountersOk { s with
    budget := budgetLess s, st := if budgetLess s = 0 then Code.toRearm else Code.awaitPage } := by
  obtain ⟨hdly, hbudget, hdw, hbw, hzero⟩ := hc
  have hpos : s.budget ≠ 0 := by
    rw [Ne, hzero (by simp [State.within, hst]), hst]
    decide
  have hless := budgetLess_of_pos (Nat.pos_of_ne_zero hpos)
  refine ⟨hdly, ?_, hdw, budgetLess_lt hbw, fun _ => ?_⟩
  · show budgetLess s ≤ s.cfg.val.timeoutInit
    omega
  · show budgetLess s = 0 ↔ (if budgetLess s = 0 then Code.toRearm else Code.awaitPage) = Code.toRearm
    split
    · exact iff_of_true ‹_› rfl
    · exact iff_of_false ‹_› (by decide)

theorem countersOk_sequencer (h : SeqStep s t) (hc : CountersOk s) : CountersOk t := by
  have choose : ∀ e ∈ chooseEdges, sameCounters e.1 e.2 := by simp [chooseEdges, sameCounters, win]
  have send : ∀ e ∈ sendEdges, sameCounters e.1 e.2 := by simp [sendEdges, sameCounters, win]
  cases h with
  | stays | stops => exact hc
  | settling hst h =>
    obtain ⟨hdly, hbudget, hdw, hbw, hzero⟩ := hc
    exact ⟨(Nat.sub_le _ _).trans hdly, hbudget, (Nat.sub_le _ _).trans_lt hdw, hbw, hzero⟩
  | chooses h => exact countersOk_move (choose _ (mem_chooseEdges h)) hc
  | sends h => exact countersOk_move (send _ (mem_sendEdges h)) hc
  | arms h => exact countersOk_loaded (by cases h <;> decide) hc
  | polls hst => exact countersOk_polls hst hc
  | sendsDone hst =>
    obtain ⟨-, hbudget, -, hbw, -⟩ := hc
    exact ⟨le_max_right _ _, hbudget, (loads_fit s.cfg).2.2, hbw, by simp [State.within]⟩
  | program hst =>
    refine countersOk_move (s := s) ?_ hc
    split <;> simp [sameCounters, win, hst]
  | advance hst =>
    obtain ⟨hdly, hbudget, hdw, hbw, -⟩ := hc
    exact ⟨hdly, hbudget, hdw, hbw, by simp [State.within]⟩
  | recvMagic hst | recvCount hst | unlock hst | setTiming hst | crcReset hst | crcCalc hst | erase hst | lock hst
  | disable hst | bootVtbr hst | bootJump hst => exact countersOk_move (by simp [sameCounters, win, hst]) hc
  | bootRead w n hst => exact countersOk_move (by simp [sameCounters, win, hst]) hc

theorem countersOk_turn (h : TurnStep s u t) (hc : CountersOk s) : CountersOk t := by
  cases h with
  | sequencer h => exact countersOk_sequencer h hc
  | _ => exact hc

/-! ## The transfer (R50, R52, R265) -/

theorem transferOk_initial (p : Params) : TransferOk (State.initial p) := by
  simp [TransferOk, State.within, State.initial]

/-- The codes at which no transfer is in progress. -/
abbrev noTransfer (c : BitVec 5) : Prop := win c 0 10 ∨ win c 19 31

/-- The edge crosses no window of the transfer; the two windows without one count as one. -/
abbrev sameTransfer (a c : BitVec 5) : Prop :=
  (noTransfer c → noTransfer a) ∧ (win c 11 14 → win a 11 14) ∧ (win c 15 16 → win a 15 16) ∧
  (win c 17 18 → win a 17 18)

/-- Outside the windows of the two transfers the driver is idle. -/
theorem not_armed_of_noTransfer (h : noTransfer s.st) (ht : TransferOk s) : s.sdArmed = false := by
  obtain ⟨hbefore, -, -, -, hafter⟩ := ht
  exact h.elim hbefore hafter

theorem transferOk_move {c : BitVec 5} (h : sameTransfer s.st c) (ht : TransferOk s) :
    TransferOk { s with st := c } := by
  obtain ⟨hidle, hpage, hfull, hcsum⟩ := h
  have idle : noTransfer c → s.sdArmed = false := fun hc => not_armed_of_noTransfer (hidle hc) ht
  obtain ⟨-, h1, h2, h3, -⟩ := ht
  exact ⟨idle ∘ .inl, h1 ∘ hpage, h2 ∘ hfull, h3 ∘ hcsum, idle ∘ .inr⟩

theorem transferOk_chooses {c : BitVec 5} (h : Chooses s c) (hd : DriverOk s) (ht : TransferOk s) :
    TransferOk { s with st := c } := by
  cases h with
  | pageComplete hst hdone =>
    obtain ⟨-, hpage, -⟩ := ht
    obtain ⟨hdest, -⟩ := hpage (by simp [State.within, hst])
    simp [TransferOk, State.within, hdest, hdone]
  | csumComplete hst hdone =>
    obtain ⟨-, hidle, -⟩ := hd
    obtain ⟨harmed, -⟩ := hidle hdone
    simp [TransferOk, State.within, harmed]
  | settledA hst | settledF hst | authentic hst | notAuthentic hst | nextPage hst | noMorePages hst | csumAwaited hst
  | checksumsAgree hst | checksumsDiffer hst =>
    exact transferOk_move (by simp [sameTransfer, noTransfer, win, hst]) ht

theorem transferOk_sequencer (h : SeqStep s t) (hd : DriverOk s) (ht : TransferOk s) : TransferOk t := by
  have send : ∀ e ∈ sendEdges, sameTransfer e.1 e.2 := by simp [sendEdges, sameTransfer, noTransfer, win]
  cases h with
  | stays | stops | settling => exact ht
  | chooses h => exact transferOk_chooses h hd ht
  | sends h => exact transferOk_move (send _ (mem_sendEdges h)) ht
  | arms h => cases h <;> simp [TransferOk, State.within]
  | polls hst | program hst =>
    refine transferOk_move (s := s) ?_ ht
    split <;> simp [sameTransfer, noTransfer, win, hst]
  | advance hst =>
    have := not_armed_of_noTransfer (by simp [noTransfer, win, hst]) ht
    simp [TransferOk, State.within, this]
  | recvMagic hst | recvCount hst | unlock hst | setTiming hst | crcReset hst | crcCalc hst | erase hst | lock hst
  | sendsDone hst | disable hst | bootVtbr hst | bootJump hst =>
    exact transferOk_move (by simp [sameTransfer, noTransfer, win, hst]) ht
  | bootRead w n hst => exact transferOk_move (by simp [sameTransfer, noTransfer, win, hst]) ht

/-- An armed driver is in the window of its destination. -/
theorem window_of_armed (ha : s.sdArmed = true) (hd : DriverOk s) (ht : TransferOk s) :
    (win s.st 11 14 ∧ s.sdDest = .pageBuf) ∨ (win s.st 17 18 ∧ s.sdDest = .csumSlot) := by
  obtain ⟨harmed, -⟩ := hd
  obtain ⟨-, hdone⟩ := harmed ha
  have hbusy : ¬ noTransfer s.st := fun h => by simp [not_armed_of_noTransfer h ht] at ha
  obtain ⟨-, hpage, hfull, hcsum, -⟩ := ht
  have hnot : ¬ win s.st 15 16 := fun h => by simp [hdone] at hfull; exact hfull h
  by_cases h : win s.st 11 14
  · exact .inl ⟨h, (hpage h).1⟩
  · have h' : win s.st 17 18 := by
      simp only [noTransfer, win] at *
      omega
    exact .inr ⟨h', (hcsum h').1⟩

theorem transferOk_turn (h : TurnStep s u t) (hd : DriverOk s) (ht : TransferOk s) : TransferOk t := by
  cases h with
  | sequencer h => exact transferOk_sequencer h hd ht
  | took ha =>
    have progress : (if s.sdCnt + 1 = s.sdLen then false else s.sdArmed) = true ∨
        (if s.sdCnt + 1 = s.sdLen then true else s.sdDone) = true := by split <;> simp [ha]
    obtain ⟨⟨h1, h2⟩, hdest⟩ | ⟨⟨h1, h2⟩, hdest⟩ := window_of_armed ha hd ht
    · refine ⟨fun h => ?_, fun _ => ⟨hdest, progress⟩, fun h => ?_, fun h => ?_, fun h => ?_⟩
      all_goals
        obtain ⟨h3, h4⟩ := h
        dsimp only at h3 h4
        omega
    · refine ⟨fun h => ?_, fun h => ?_, fun h => ?_, fun _ => ⟨hdest, progress⟩, fun h => ?_⟩
      all_goals
        obtain ⟨h3, h4⟩ := h
        dsimp only at h3 h4
        omega
  | _ => exact ht

/-! ## The gate (R122, R128, R132) -/

theorem gateOk_initial (p : Params) : GateOk (State.initial p) := by
  simp [GateOk, State.within, State.initial]

/-- The edge crosses no window of the gate. -/
abbrev sameGate (a c : BitVec 5) : Prop :=
  (win c 10 15 → win a 10 15) ∧ (win c 16 23 → win a 16 23) ∧ (win c 21 23 → win a 21 23)

theorem gateOk_move {c : BitVec 5} (h : sameGate s.st c) (hg : GateOk s) : GateOk { s with st := c } := by
  obtain ⟨h1, h2, h3⟩ := h
  obtain ⟨hacc, hlocal, hequal⟩ := hg
  exact ⟨hacc ∘ h1, hlocal ∘ h2, hequal ∘ h3⟩

theorem gateOk_chooses {c : BitVec 5} (h : Chooses s c) (hg : GateOk s) : GateOk { s with st := c } := by
  cases h with
  | checksumsAgree hst hequal =>
    obtain ⟨-, hlocal, -⟩ := hg
    exact ⟨by simp [State.within], fun _ => hlocal (by simp [State.within, hst]), fun _ => hequal⟩
  | settledA hst | settledF hst | authentic hst | notAuthentic hst | nextPage hst | noMorePages hst | pageComplete hst
  | csumComplete hst | csumAwaited hst | checksumsDiffer hst => exact gateOk_move (by simp [sameGate, win, hst]) hg

theorem gateOk_sequencer (h : SeqStep s t) (hg : GateOk s) : GateOk t := by
  have send : ∀ e ∈ sendEdges, sameGate e.1 e.2 := by simp [sendEdges, sameGate, win]
  have arm : ∀ e ∈ armEdges, sameGate e.1 e.2 := by simp [armEdges, sameGate, win]
  cases h with
  | stays | stops | settling => exact hg
  | chooses h => exact gateOk_chooses h hg
  | sends h => exact gateOk_move (send _ (mem_sendEdges h)) hg
  | arms h => exact gateOk_move (arm _ (mem_armEdges h)) hg
  | crcReset hst => exact ⟨fun _ => rfl, by simp [State.within], by simp [State.within]⟩
  | crcCalc hst =>
    obtain ⟨hacc, -⟩ := hg
    refine ⟨by simp [State.within], fun _ => ?_, by simp [State.within]⟩
    show ckFeed s.cfg.val.checksum s.ckAcc (bufferWords s) = _
    rw [hacc (by simp [State.within, hst])]
    rfl
  | polls hst | program hst =>
    refine gateOk_move (s := s) ?_ hg
    split <;> simp [sameGate, win, hst]
  | advance hst => simp [GateOk, State.within]
  | recvMagic hst | recvCount hst | unlock hst | setTiming hst | erase hst | lock hst | sendsDone hst | disable hst
  | bootVtbr hst | bootJump hst => exact gateOk_move (by simp [sameGate, win, hst]) hg
  | bootRead w n hst => exact gateOk_move (by simp [sameGate, win, hst]) hg

/-- The driver writes the page before it is summed, and the slot before it is compared (R52). -/
theorem gateOk_turn (h : TurnStep s u t) (hd : DriverOk s) (ht : TransferOk s) (hg : GateOk s) : GateOk t := by
  cases h with
  | sequencer h => exact gateOk_sequencer h hg
  | took ha =>
    obtain ⟨hacc, hlocal, hequal⟩ := hg
    obtain ⟨⟨h1, h2⟩, hdest⟩ | ⟨⟨h1, h2⟩, hdest⟩ := window_of_armed ha hd ht
    · refine ⟨hacc, fun h => ?_, fun h => ?_⟩
      all_goals
        obtain ⟨h3, h4⟩ := h
        dsimp only at h3 h4
        omega
    · refine ⟨hacc, fun h => ?_, fun h => ?_⟩
      · simpa [bufferWords, hdest] using hlocal h
      · obtain ⟨h3, h4⟩ := h
        dsimp only at h3 h4
        omega
  | _ => exact hg

/-! ## The commit (R152, R155) -/

/-- The page at `a` holds the first `k` words of the buffer, and is erased from there on. -/
def Committed (m : Memory) (a : Nat) (buf : Vector Word 256) (erased : Word) (k : Nat) : Prop :=
  (∀ i : Fin 256, i.val < k → readWord m (a + 4 * i.val) = some buf[i.val]) ∧
  (∀ i : Fin 256, k ≤ i.val → readWord m (a + 4 * i.val) = some erased)

theorem committed_erasePage (m : Memory) (a : Nat) (buf : Vector Word 256) (w : Word) :
    Committed (erasePage m a w) a buf w 0 :=
  ⟨fun _ h => absurd h (Nat.not_lt_zero _), fun i _ => readWord_erasePage m a w i i.isLt⟩

/-- A program of the next word of the buffer is one word more of the commit. -/
theorem committed_writeWord {m : Memory} {a : Nat} {buf : Vector Word 256} {w : Word} {k : Nat} (hk : k < 256)
    (h : Committed m a buf w k) : Committed (writeWord m (a + 4 * k) buf[k]) a buf w (k + 1) := by
  obtain ⟨hbelow, habove⟩ := h
  constructor
  · intro i hi
    by_cases hik : i.val = k
    · simp only [hik, readWord_writeWord_self]
    · rw [readWord_writeWord_other _ _ _ _ (by omega)]
      exact hbelow i (by omega)
  · intro i hi
    rw [readWord_writeWord_other _ _ _ _ (by omega)]
    exact habove i (by omega)

theorem commitOk_initial (p : Params) : CommitOk (State.initial p) := by
  simp [CommitOk, State.within, State.initial]

/-- Outside a commit there is nothing to show. -/
theorem commitOk_of_not_within (h : ¬ t.within 22 23) : CommitOk t := by
  refine ⟨fun hw => absurd ?_ h, fun hw => absurd ?_ h, fun hw => absurd hw h⟩ <;>
  · simp only [State.within] at hw ⊢
    omega

/-- What the commit in progress says of the word that the next program writes. -/
theorem commitOk_program (hst : s.st = Code.program) (hc : CommitOk s) : s.widx.toNat < 256 ∧
    s.cursor.toNat + 1024 ≤ s.cfg.val.flashEnd.toNat ∧
    (programAddr s).toNat = s.cursor.toNat + 4 * s.widx.toNat ∧
    Committed s.nvMem s.cursor.toNat s.pageBuf s.cfg.val.erased s.widx.toNat := by
  obtain ⟨hroom, -, hpage⟩ := hc
  obtain ⟨hw, hr⟩ := hroom (by simp [State.within, hst])
  obtain ⟨-, -, -, hend, -⟩ := s.cfg.ok
  exact ⟨hw, hr, programAddr_toNat hw (hr.trans hend), hpage (by simp [State.within, hst])⟩

/-- The word the next program writes reads as erased, so it does not fault (R213). -/
theorem readWord_programAddr (hst : s.st = Code.program) (hc : CommitOk s) :
    readWord s.nvMem (programAddr s).toNat = some s.cfg.val.erased := by
  obtain ⟨hw, -, haddr, -, habove⟩ := commitOk_program hst hc
  exact haddr ▸ habove ⟨s.widx.toNat, hw⟩ le_rfl

theorem commitOk_erase (hr : s.cursor.toNat + 1024 ≤ s.cfg.val.flashEnd.toNat) : CommitOk { s with
    nvMem := erasePage s.nvMem s.cursor.toNat s.cfg.val.erased, widx := 0#9, st := Code.program } :=
  ⟨fun _ => ⟨(by decide : (0#9).toNat < 256), hr⟩, by simp [State.within], fun _ => committed_erasePage _ _ _ _⟩

theorem commitOk_programmed (hst : s.st = Code.program) (hc : CommitOk s) : CommitOk { s with
    nvMem := writeWord s.nvMem (programAddr s).toNat (programData s), widx := s.widx + 1#9,
    draws := programDraws s, st := if s.widx.toNat = 255 then Code.advance else Code.program } := by
  obtain ⟨hw, hr, haddr, hpage⟩ := commitOk_program hst hc
  have hwidx : (s.widx + 1#9).toNat = s.widx.toNat + 1 := by bv_omega
  have hnext := committed_writeWord hw hpage
  rw [haddr, (programData_of_lt hw).1]
  refine ⟨fun h => ⟨?_, hr⟩, fun h => ?_, fun _ => hwidx ▸ hnext⟩
  · by_cases hlast : s.widx.toNat = 255
    · simp [State.within, hlast] at h
    · show (s.widx + 1#9).toNat < 256
      omega
  · by_cases hlast : s.widx.toNat = 255
    · show (s.widx + 1#9).toNat = 256
      omega
    · simp [State.within, hlast] at h

/-- Only the erase enters a commit, and only programs go on with it. -/
theorem commitOk_sequencer (h : SeqStep s t) (hc : CommitOk s) : CommitOk t := by
  have choose : ∀ e ∈ chooseEdges, ¬ win e.2 22 23 := by simp [chooseEdges, win]
  have send : ∀ e ∈ sendEdges, ¬ win e.2 22 23 := by simp [sendEdges, win]
  have arm : ∀ e ∈ armEdges, ¬ win e.2 22 23 := by simp [armEdges, win]
  cases h with
  | stays | settling => exact hc
  | stops r h =>
    cases h with
    | notErased hst h => exact absurd (readWord_programAddr hst hc) h
    | _ => exact hc
  | chooses h => exact commitOk_of_not_within (choose _ (mem_chooseEdges h))
  | sends h => exact commitOk_of_not_within (send _ (mem_sendEdges h))
  | arms h => exact commitOk_of_not_within (arm _ (mem_armEdges h))
  | erase hst ha hr => exact commitOk_erase hr
  | program hst => exact commitOk_programmed hst hc
  | polls hst =>
    refine commitOk_of_not_within ?_
    simp only [State.within]
    split <;> simp
  | recvMagic | recvCount | unlock | setTiming | crcReset | crcCalc | advance | lock | sendsDone | disable | bootRead
  | bootVtbr | bootJump => exact commitOk_of_not_within (by simp [State.within])

/-- No byte reaches the buffer while its page is committed (R155). -/
theorem commitOk_turn (h : TurnStep s u t) (hd : DriverOk s) (ht : TransferOk s) (hc : CommitOk s) : CommitOk t := by
  cases h with
  | sequencer h => exact commitOk_sequencer h hc
  | took ha =>
    refine commitOk_of_not_within fun h => ?_
    obtain ⟨h1, h2⟩ := h
    dsimp only at h1 h2
    obtain ⟨⟨h3, h4⟩, -⟩ | ⟨⟨h3, h4⟩, -⟩ := window_of_armed ha hd ht <;> omega
  | _ => exact hc

/-! ## All of them -/

theorem inv_initial (p : Params) : Inv (State.initial p) where
  script := by simp [NoTransactions, State.initial]
  memory := by simp [MemoryOk, Memory.wf, State.initial]
  driver := driverOk_initial p
  phase := phaseOk_initial p
  session := sessionOk_initial p
  counters := countersOk_initial p
  transfer := transferOk_initial p
  gate := gateOk_initial p
  commit := commitOk_initial p

theorem inv_schedule {sc : List Event} {n : Nat} (hsc : ∀ e ∈ sc, ∃ u, e = Event.turn u) (h : Inv s) :
    Inv { s with script := sc, turnCount := n } :=
  { h with script := hsc }

theorem inv_resetEvent (h : Inv s) : Inv (resetEvent s) :=
  { inv_initial s.cfg with
    script := h.script
    memory := Storage.memoryOk_resetEvent h.memory
    commit := commitOk_of_not_within (by simp [State.within, resetEvent, State.initial]) }

theorem inv_turn (h : TurnStep s u t) (hi : Inv s) : Inv t where
  script := noTransactions_turn h hi.script
  memory := Storage.memoryOk_turn h hi.memory
  driver := driverOk_turn h hi.driver
  phase := phaseOk_turn h hi.phase
  session := sessionOk_turn h hi.phase hi.session
  counters := countersOk_turn h hi.counters
  transfer := transferOk_turn h hi.driver hi.transfer
  gate := gateOk_turn h hi.driver hi.transfer hi.gate
  commit := commitOk_turn h hi.driver hi.transfer hi.commit

/-- Settles O57: each invariant is kept by every turn, with the ones it leans on. -/
theorem stepKeepsTheInvariant : Obligations.StepKeepsTheInvariant := fun _ _ hi =>
  step_keeps (P := Inv) (fun _ _ _ => inv_schedule) (fun _ => inv_resetEvent) (fun _ _ _ => inv_turn) hi.script hi

/-! ## What they rule out (R29, R241) -/

/-- The pages of a session are aligned (R48). -/
theorem cursor_aligned (hw : s.within 6 24) (hs : SessionOk s) : s.cursor.toNat % 1024 = 0 := by
  obtain ⟨hexists, -⟩ := hs
  obtain ⟨-, hcursor⟩ := hexists (.inl hw)
  obtain ⟨haligned, -⟩ := s.cfg.ok
  omega

/-- No operation records a fault, if the page of a commit has room at the erase. -/
theorem not_stops {m : Memory} (hi : Inv s)
    (hroom : s.st = Code.erase → s.cursor.toNat + 1024 ≤ s.cfg.val.flashEnd.toNat) : ¬ Stops s m := by
  obtain ⟨hlock, hrx, htx, -⟩ := hi.phase
  intro h
  cases h with
  | sendDisabled hst h =>
    have senders : ∀ c ∈ [Code.announce, Code.ack, Code.reqPage, Code.toTx, Code.reqCsum, Code.errTx, Code.doneTx],
        win c 0 27 := by simp [win]
    simp [htx.2 (senders _ hst)] at h
  | receiveDisabled hst h =>
    have : s.rxEn = true := hrx.2 (by rcases hst with hst | hst <;> simp [State.within, hst])
    simp [this] at h
  | eraseRefused hst h =>
    have ha := cursor_aligned (by simp [State.within, hst]) hi.session
    have hl := hlock.2 (by simp [State.within, hst])
    have := hroom hst
    simp [ha, hl] at h
    omega
  | programRefused hst h =>
    have ha := cursor_aligned (by simp [State.within, hst]) hi.session
    have hl := hlock.2 (by simp [State.within, hst])
    obtain ⟨hw, hr, haddr, -⟩ := commitOk_program hst hi.commit
    simp only [hl, haddr, Bool.false_eq_true, false_or] at h
    omega
  | notErased hst h => exact h (readWord_programAddr hst hi.commit)

/-- An armed driver's index lies inside its destination (R200). -/
theorem driver_inRange (ha : s.sdArmed = true) (hd : DriverOk s) : s.sdCnt < s.sdDest.size := by
  obtain ⟨harmed, -, hlen⟩ := hd
  obtain ⟨hcnt, -⟩ := harmed ha
  cases hdest : s.sdDest <;> simp_all

/-- Only an operation that stops records a fault. -/
theorem fault_of_seqStep (h : SeqStep s t) : t.fault = s.fault ∨ ∃ m, Stops s m := by
  cases h with
  | stops r h => exact .inr ⟨_, h⟩
  | _ => exact .inl rfl

theorem runTurn_goes_on (u : Turn) (hi : Inv s) (hf : s.fault = none)
    (hroom : s.st = Code.erase → s.cursor.toNat + 1024 ≤ s.cfg.val.flashEnd.toNat) :
    ∃ t, runTurn u s = .next t ∧ t.fault = none := by
  cases u with
  | sequencer =>
    obtain ⟨t, hx, hstep⟩ := sequencer_steps s
    obtain hfault | ⟨m, hstop⟩ := fault_of_seqStep hstep
    · exact ⟨t, (unlessFaulted_none hf _).trans hx, hfault.trans hf⟩
    · exact absurd hstop (not_stops hi hroom)
  | driver =>
    obtain ⟨-, hd⟩ | ⟨b, rest, ha, -, -, ⟨-, hd⟩ | ⟨hc, -⟩⟩ := driverTurn_cases s
    · exact ⟨s, (unlessFaulted_none hf _).trans hd, hf⟩
    · exact ⟨_, (unlessFaulted_none hf _).trans hd, (driverTake_fault b rest s).trans hf⟩
    · exact absurd (driver_inRange ha hi.driver) hc
  | host b => exact ⟨_, unlessFaulted_none hf _, hf⟩
  | drop =>
    refine ⟨_, unlessFaulted_none hf _, ?_⟩
    obtain ⟨-, h⟩ | ⟨-, h⟩ := dropTurn_cases s <;> rw [h] <;> exact hf
  | transport ready => exact ⟨_, unlessFaulted_none hf _, hf⟩
  | reset => exact ⟨_, rfl, rfl⟩

/-- Settles O59: an operation would stop only with the lock, the transport, the address or the word not as the
invariants say, and the driver only with an index outside its destination. -/
theorem invariantRulesOutEveryStop : Obligations.InvariantRulesOutEveryStop := by
  intro s hi hf hroom
  obtain ⟨u, sc, n, hsc, hstep⟩ := step_turn hi.script
  rw [hstep]
  exact runTurn_goes_on u (inv_schedule hsc hi) hf hroom

end Sys2Proof.Invariants

/-! PROOFS of the language of transcripts (`30_encoding.md` R81): every symbol sent may follow the last one, and the
pages that passed the gate are those the session has counted off. -/

namespace Sys2Proof.Transcript

open Sys2Proof Sys2Proof.Machine Sys2Proof.Laws Sys2Proof.Turns Sys2Proof.Invariants

/-! ## One symbol more -/

theorem chained_concat {log : List Byte} {a b : Byte} (h : chained log = true) (ha : log.getLast? = some a)
    (hab : mayFollow a b = true) : chained (log ++ [b]) = true := by
  induction log with
  | nil => cases ha
  | cons x rest ih =>
    cases rest with
    | nil =>
      obtain rfl : x = a := by simpa using ha
      simp [chained, hab]
    | cons y rest =>
      simp only [chained, List.cons_append, Bool.and_eq_true] at h ih ⊢
      exact ⟨h.1, ih h.2 (by simpa using ha)⟩

/-- A symbol that may follow the last one extends the transcript; after `'D'` the session must be complete. -/
theorem transcriptOf_concat {log : List Byte} {n : Nat} {a b : Byte} (h : transcriptOf log n)
    (ha : log.getLast? = some a) (hab : mayFollow a b = true)
    (hdone : b = Config.symDone → Config.symAck ∈ log → pagesPassed (log ++ [b]) = n) :
    transcriptOf (log ++ [b]) n := by
  obtain ⟨hhead, hchain, -⟩ := h
  have hne : log ≠ [] := by rintro rfl; cases ha
  refine ⟨.inr ?_, chained_concat hchain ha hab, fun hlast hack => ?_⟩
  · rw [List.head?_append_of_ne_nil _ hne]
    exact hhead.resolve_left hne
  · obtain rfl : b = Config.symDone := by simpa using hlast
    obtain hack | hack := List.mem_append.1 hack
    · exact hdone rfl hack
    · exact absurd hack (by decide)

section Step

variable {s t : State} {u : Turn}

theorem transcriptOk_initial (p : Params) : TranscriptOk (State.initial p) := by
  simp [TranscriptOk, transcriptOf, chained, State.within, State.initial]

/-- The edge crosses no window of the transcript. -/
abbrev sameTranscript (a c : BitVec 5) : Prop :=
  (win c 0 1 → win a 0 1) ∧ (win c 2 4 → win a 2 4) ∧ (win c 5 7 → win a 5 7) ∧ (win c 8 8 → win a 8 8) ∧
  (win c 9 11 → win a 9 11) ∧ (win c 12 17 → win a 12 17) ∧ (win c 18 23 → win a 18 23) ∧ (win c 24 24 → win a 24 24) ∧
  (win c 25 25 → win a 25 25) ∧ (win c 26 31 → win a 26 31) ∧ (win c 8 24 → win a 8 24) ∧
  (win c 25 31 → win a 25 31) ∧ (win c 6 17 → win a 6 17)

theorem transcriptOk_move {c : BitVec 5} (h : sameTranscript s.st c) (ht : TranscriptOk s) :
    TranscriptOk { s with st := c } := by
  obtain ⟨hlang, h0, h2, h5, h8, h9, h12, h18, h24, h25, h26, hack, hshort, hpages, hasked⟩ := ht
  obtain ⟨g0, g2, g5, g8, g9, g12, g18, g24, g25, g26, gsession, gafter, gpages⟩ := h
  exact ⟨hlang, h0 ∘ g0, h2 ∘ g2, h5 ∘ g5, h8 ∘ g8, h9 ∘ g9, h12 ∘ g12, h18 ∘ g18, h24 ∘ g24, h25 ∘ g25, h26 ∘ g26,
    hack ∘ .imp gsession (.imp_left gafter), hshort ∘ .imp_left g26,
    hpages ∘ .imp gpages (.imp g24 (.imp_left gafter)), hasked ∘ g18⟩

/-! ## Edges that send nothing but cross a window -/

theorem transcriptOk_chooses {c : BitVec 5} (h : Chooses s c) (hi : Inv s) (ht : TranscriptOk s) :
    TranscriptOk { s with st := c } := by
  have hcross := ht
  obtain ⟨hlang, -, h2, -, h8, -, -, -, -, -, -, hack, -, hpages, -⟩ := hcross
  cases h with
  | notAuthentic hst =>
    obtain ⟨-, -, -, -, hunset, -⟩ := hi.phase
    have htiming := hunset (by simp [State.within, hst])
    have hlog := h2 (by simp [State.within, hst])
    simpa [TranscriptOk, State.within, htiming, hlog] using hlog ▸ hlang
  | nextPage hst h =>
    have hlast := h8 (by simp [State.within, hst])
    have hack := hack (by simp [State.within, hst])
    have hpages := hpages (by simp [State.within, hst])
    have hlast' := hlast.imp_right (Or.imp_right And.left)
    simpa [TranscriptOk, State.within] using And.intro hlang (And.intro hlast' (And.intro hack hpages))
  | noMorePages hst h =>
    have hlast := h8 (by simp [State.within, hst])
    have hack := hack (by simp [State.within, hst])
    have hpages := hpages (by simp [State.within, hst])
    have hlast' : s.txLog.getLast? = some Config.symAck ∨ s.txLog.getLast? = some Config.symCsum := by
      simpa [h] using hlast
    simpa [TranscriptOk, State.within] using And.intro hlang (And.intro hlast' (And.intro hack hpages))
  | settledA hst | settledF hst | authentic hst | pageComplete hst | csumComplete hst | csumAwaited hst
  | checksumsAgree hst | checksumsDiffer hst =>
    exact transcriptOk_move (by simp [sameTranscript, win, hst]) ht

/-- The count comes before any page: the session starts with none passed. -/
theorem transcriptOk_recvCount {b : Byte} {rest : List Byte} (hst : s.st = Code.recvCount) (ht : TranscriptOk s) :
    TranscriptOk { s with
      line := rest, rxByte := b, remaining := b, cursor := s.cfg.val.appBase, st := Code.unlock } := by
  obtain ⟨-, -, -, h5, -⟩ := ht
  have hlog := h5 (by simp [State.within, hst])
  have hlang : transcriptOf s.txLog b.toNat := by
    rw [hlog]
    exact ⟨.inr rfl, rfl, fun h => absurd h (by decide)⟩
  have hpages : s.txLog.count Config.symCsum = s.txLog.count Config.symError := by
    rw [hlog]
    rfl
  simpa [TranscriptOk, State.within] using And.intro hlang (And.intro hlog hpages)

/-- Before the magic byte is judged no session has a count (R104). -/
theorem transcriptOk_recvMagic {b : Byte} {rest : List Byte} (hst : s.st = Code.recvMagic) (ht : TranscriptOk s) :
    TranscriptOk { s with line := rest, rxByte := b, st := Code.auth } := by
  obtain ⟨-, -, h2, -⟩ := ht
  have hlog := h2 (by simp [State.within, hst])
  have hlang : transcriptOf s.txLog b.toNat := by
    rw [hlog]
    exact ⟨.inr rfl, rfl, fun h => absurd h (by decide)⟩
  simpa [TranscriptOk, State.within] using And.intro hlang hlog

theorem transcriptOk_setTiming (hst : s.st = Code.setTiming) (ht : TranscriptOk s) :
    TranscriptOk { s with nvTiming := some s.cfg.val.nvmTiming, st := Code.loopTest } := by
  obtain ⟨hlang, -, -, h5, -, -, -, -, -, -, -, -, -, hpages, -⟩ := ht
  have hlog := h5 (by simp [State.within, hst])
  have hpages := hpages (by simp [State.within, hst])
  have hlast : s.txLog.getLast? = some Config.symAck := by rw [hlog]; rfl
  have hack : Config.symAck ∈ s.txLog := by rw [hlog]; decide
  simpa [TranscriptOk, State.within] using And.intro hlang (And.intro (.inl hlast) (And.intro hack hpages))

/-- The page whose checksum was asked for is counted off (R153). -/
theorem transcriptOk_advance (hst : s.st = Code.advance) (hs : SessionOk s) (ht : TranscriptOk s) :
    TranscriptOk { s with
      cursor := s.cursor + 1024#32, remaining := s.remaining - 1#8, st := Code.loopTest } := by
  obtain ⟨hexists, hbody, -⟩ := hs
  obtain ⟨hle, -⟩ := hexists (.inl (by simp [State.within, hst]))
  have hpos := hbody (by simp [State.within, hst])
  obtain ⟨hlang, -, -, -, -, -, -, h18, -, -, -, hack, -, -, hasked⟩ := ht
  have hlast := h18 (by simp [State.within, hst])
  have hack := hack (by simp [State.within, hst])
  have hasked := hasked (by simp [State.within, hst])
  have hrem : (s.remaining - 1#8).toNat = s.remaining.toNat - 1 := by bv_omega
  have hpages : s.txLog.count Config.symCsum =
      s.txLog.count Config.symError + (s.rxByte.toNat - (s.remaining - 1#8).toNat) := by omega
  simpa [TranscriptOk, State.within] using And.intro hlang (And.intro (.inr (.inl hlast)) (And.intro hack hpages))

theorem transcriptOk_lock (hst : s.st = Code.lock) (hp : PhaseOk s) (ht : TranscriptOk s) :
    TranscriptOk { s with nvLocked := true, st := Code.doneTx } := by
  obtain ⟨-, -, -, hset, -⟩ := hp
  have htiming := hset (by simp [State.within, hst])
  obtain ⟨hlang, -, -, -, -, -, -, -, h24, -, -, hack, -, hpages, -⟩ := ht
  have hlast := h24 (by simp [State.within, hst])
  have hack := hack (by simp [State.within, hst])
  have hpages := hpages (by simp [State.within, hst])
  simpa [TranscriptOk, State.within, htiming] using And.intro hlang (And.intro hlast (And.intro hack hpages))

/-! ## Edges that send a symbol -/

theorem transcriptOk_sends {b : Byte} {c : BitVec 5} (h : Sends s b c) (hs : SessionOk s) (ht : TranscriptOk s) :
    TranscriptOk { s with txLog := s.txLog ++ [b], st := c } := by
  obtain ⟨hlang, h0, h2, -, -, h9, h12, h18, -, -, -, hack, -, hpages, hasked⟩ := ht
  cases h with
  | ready hst =>
    have hlog := h0 (by simp [State.within, hst])
    simp [TranscriptOk, State.within, hlog, transcriptOf, chained, Config.symReady, Config.symDone]
  | ack hst =>
    have hlog := h2 (by simp [State.within, hst])
    simp [TranscriptOk, State.within, hlog, transcriptOf, chained, mayFollow, Config.symAck, Config.symDone]
  | page hst =>
    have hack := hack (by simp [State.within, hst])
    have hpages := hpages (by simp [State.within, hst])
    have hlang' : transcriptOf (s.txLog ++ [Config.symPage]) s.rxByte.toNat := by
      obtain hl | hl | hl := h9 (by simp [State.within, hst]) <;>
        exact transcriptOf_concat hlang hl rfl fun h => absurd h (by decide)
    simpa [TranscriptOk, State.within, Config.symAck, Config.symPage, Config.symCsum, Config.symError]
      using And.intro hlang' (And.intro hack hpages)
  | timeout hst =>
    have hack := hack (by simp [State.within, hst])
    have hpages := hpages (by simp [State.within, hst])
    have hlang' : transcriptOf (s.txLog ++ [Config.symTimeout]) s.rxByte.toNat := by
      obtain hl | hl := h12 (by simp [State.within, hst]) <;>
        exact transcriptOf_concat hlang hl rfl fun h => absurd h (by decide)
    simpa [TranscriptOk, State.within, Config.symAck, Config.symTimeout, Config.symCsum, Config.symError]
      using And.intro hlang' (And.intro hack hpages)
  | csum hst =>
    have hack := hack (by simp [State.within, hst])
    have hpages := hpages (by simp [State.within, hst])
    have hlang' : transcriptOf (s.txLog ++ [Config.symCsum]) s.rxByte.toNat := by
      obtain hl | hl := h12 (by simp [State.within, hst]) <;>
        exact transcriptOf_concat hlang hl rfl fun h => absurd h (by decide)
    simpa [TranscriptOk, State.within, Config.symAck, Config.symCsum, Config.symError]
      using And.intro hlang' (And.intro hack hpages)
  | error hst =>
    have hpos := hs.2.1 (by simp [State.within, hst])
    have hack := hack (by simp [State.within, hst])
    have hasked := hasked (by simp [State.within, hst])
    have hlang' : transcriptOf (s.txLog ++ [Config.symError]) s.rxByte.toNat :=
      transcriptOf_concat hlang (h18 (by simp [State.within, hst])) rfl fun h => absurd h (by decide)
    have hpages : s.txLog.count Config.symCsum =
        s.txLog.count Config.symError + 1 + (s.rxByte.toNat - s.remaining.toNat) := by omega
    simpa [TranscriptOk, State.within, Config.symAck, Config.symCsum, Config.symError]
      using And.intro hlang' (And.intro hpos (And.intro hack hpages))

/-- The last symbol: after a session its pages are all passed, without one nothing was asked for (R171, R231). -/
theorem transcriptOk_sendsDone (hst : s.st = Code.doneTx) (hs : SessionOk s) (ht : TranscriptOk s) :
    TranscriptOk { s with
      txLog := s.txLog ++ [Config.symDone], dly := s.cfg.val.settleF, st := Code.settleF } := by
  obtain ⟨-, -, hafter⟩ := hs
  obtain ⟨hlang, -, -, -, -, -, -, -, -, h25, -, hack, -, hpages, -⟩ := ht
  obtain ⟨htiming, hlog⟩ | ⟨htiming, hlast⟩ := h25 (by simp [State.within, hst])
  · simp [TranscriptOk, State.within, hlog, htiming, transcriptOf, chained, mayFollow, Config.symReady, Config.symAck,
      Config.symDone]
  · have hrem := hafter (.inr ⟨by simp [State.within, hst], htiming⟩)
    have hack := hack (.inr ⟨by simp [State.within, hst], htiming⟩)
    have hpages := hpages (.inr (.inr ⟨by simp [State.within, hst], htiming⟩))
    have hpassed : pagesPassed (s.txLog ++ [Config.symDone]) = s.rxByte.toNat := by
      simp [pagesPassed, Config.symCsum, Config.symError, Config.symDone] at hpages ⊢
      omega
    have hlang' : transcriptOf (s.txLog ++ [Config.symDone]) s.rxByte.toNat := by
      obtain hl | hl := hlast <;> exact transcriptOf_concat hlang hl rfl fun _ _ => hpassed
    simpa [TranscriptOk, State.within, htiming, Config.symAck, Config.symCsum, Config.symError, Config.symDone]
      using And.intro hlang' (And.intro hack hpages)

/-! ## Every step -/

theorem transcriptOk_sequencer (h : SeqStep s t) (hi : Inv s) (ht : TranscriptOk s) : TranscriptOk t := by
  have arm : ∀ e ∈ armEdges, sameTranscript e.1 e.2 := by simp [armEdges, sameTranscript, win]
  cases h with
  | stays | stops | settling => exact ht
  | chooses h => exact transcriptOk_chooses h hi ht
  | sends h => exact transcriptOk_sends h hi.session ht
  | arms h => exact transcriptOk_move (arm _ (mem_armEdges h)) ht
  | recvMagic hst => exact transcriptOk_recvMagic hst ht
  | recvCount hst => exact transcriptOk_recvCount hst ht
  | setTiming hst => exact transcriptOk_setTiming hst ht
  | advance hst => exact transcriptOk_advance hst hi.session ht
  | lock hst => exact transcriptOk_lock hst hi.phase ht
  | sendsDone hst => exact transcriptOk_sendsDone hst hi.session ht
  | polls hst | program hst =>
    refine transcriptOk_move (s := s) ?_ ht
    split <;> simp [sameTranscript, win, hst]
  | unlock hst | crcReset hst | crcCalc hst | erase hst | disable hst | bootVtbr hst | bootJump hst =>
    exact transcriptOk_move (by simp [sameTranscript, win, hst]) ht
  | bootRead w n hst => exact transcriptOk_move (by simp [sameTranscript, win, hst]) ht

theorem transcriptOk_turn (h : TurnStep s u t) (hi : Inv s) (ht : TranscriptOk s) : TranscriptOk t := by
  cases h with
  | sequencer h => exact transcriptOk_sequencer h hi ht
  | _ => exact ht

end Step

/-- Settles O60. -/
theorem stepKeepsTheTranscriptLanguage : Obligations.StepKeepsTheTranscriptLanguage := fun _ _ hi ht h =>
  (step_keeps (P := fun s => Inv s ∧ TranscriptOk s) (fun _ _ _ hsc h => ⟨inv_schedule hsc h.1, h.2⟩)
    (fun s h => ⟨inv_resetEvent h.1, transcriptOk_initial s.cfg⟩)
    (fun _ _ _ hu h => ⟨inv_turn hu h.1, transcriptOk_turn hu h.1 h.2⟩) hi.script ⟨hi, ht⟩ h).2

/-- Settles O58: right after reset no window but the first is open. -/
theorem invariantHoldsAtReset : Obligations.InvariantHoldsAtReset :=
  ⟨inv_initial Config.params, transcriptOk_initial Config.params⟩

end Sys2Proof.Transcript

/-! PROOFS of the rules of the whole machine: what any turn but the reset can, and cannot, change (`30_encoding.md` R71,
R77, `41_page_stream.md` R135, `42_flash_commit.md` R158, `43_finalize_boot.md` R177, `44_interfaces.md` R195). -/

namespace Sys2Proof.Rules

open Sys2Proof Sys2Proof.Machine Sys2Proof.Laws Sys2Proof.Turns Sys2Proof.Invariants

variable {s t : State} {u : Turn}

/-! ## The transition table (R77) -/

/-- Every edge is one of the table, but for a turn that is blocked or over and one that stops. -/
theorem seqStep_successor (h : SeqStep s t) : t.st ∈ successors s.st ∨ (t = s ∧ (s.stuck ∨ s.st = Code.handoff)) ∨
    (t.st = s.st ∧ t.fault ≠ none) := by
  have choose : ∀ e ∈ chooseEdges, e.2 ∈ successors e.1 := by simp [chooseEdges, successors, decodeState]
  have send : ∀ e ∈ sendEdges, e.2 ∈ successors e.1 := by simp [sendEdges, successors, decodeState]
  have arm : ∀ e ∈ armEdges, e.2 ∈ successors e.1 := by simp [armEdges, successors, decodeState]
  cases h with
  | stays h => exact .inr (.inl ⟨rfl, h⟩)
  | stops r h => exact .inr (.inr ⟨rfl, by simp⟩)
  | chooses h => exact .inl (choose _ (mem_chooseEdges h))
  | sends h => exact .inl (send _ (mem_sendEdges h))
  | arms h => exact .inl (arm _ (mem_armEdges h))
  | settling hst => exact .inl (by obtain hst | hst := hst <;> simp only [hst] <;> decide)
  | polls hst | program hst =>
    left
    simp only [hst]
    split <;> decide
  | recvMagic hst | recvCount hst | unlock hst | setTiming hst | crcReset hst | crcCalc hst | erase hst | advance hst
  | lock hst | sendsDone hst | disable hst | bootVtbr hst | bootJump hst => exact .inl (by simp only [hst]; decide)
  | bootRead w n hst => exact .inl (by simp only [hst]; decide)

/-- Settles O47. -/
theorem sequencerFollowsTheTransitionTable : Obligations.SequencerFollowsTheTransitionTable := by
  intro s
  obtain ⟨t, hx, hstep⟩ := sequencer_steps s
  exact ⟨t, hx, fun _ => seqStep_successor hstep⟩

/-! ## The session registers (R135) -/

theorem session_turn (h : TurnStep s u t) (hu : u = .sequencer → s.st ≠ Code.recvCount ∧ s.st ≠ Code.advance) :
    t.cursor = s.cursor ∧ t.remaining = s.remaining := by
  cases h with
  | sequencer h =>
    obtain ⟨hcount, hadvance⟩ := hu rfl
    cases h with
    | recvCount hst => exact absurd hst hcount
    | advance hst => exact absurd hst hadvance
    | _ => exact ⟨rfl, rfl⟩
  | _ => exact ⟨rfl, rfl⟩

/-- Settles O48. -/
theorem onlyTwoOperationsChangeTheSession : Obligations.OnlyTwoOperationsChangeTheSession := by
  intro s t u hn hr hu h
  obtain ⟨-, sc, n, ht⟩ := turnStep_of_step hn hr h
  have kept := session_turn ht hu
  exact kept

/-! ## Storage (R57, R158) -/

theorem nvMem_turn (h : TurnStep s u t) (hu : u = .sequencer → s.st ≠ Code.erase ∧ s.st ≠ Code.program) :
    t.nvMem = s.nvMem := by
  cases h with
  | sequencer h =>
    obtain ⟨herase, hprogram⟩ := hu rfl
    cases h with
    | stops r h =>
      cases h with
      | notErased hst => exact absurd hst hprogram
      | _ => rfl
    | erase hst => exact absurd hst herase
    | program hst => exact absurd hst hprogram
    | _ => rfl
  | _ => rfl

/-- Without authentication the timing is unset, and a commit comes only after it is set (R150). -/
theorem not_commit_of_timing_unset (hp : PhaseOk s) (ht : s.nvTiming = none) :
    s.st ≠ Code.erase ∧ s.st ≠ Code.program := by
  obtain ⟨-, -, -, hset, -⟩ := hp
  constructor
  all_goals
    intro hst
    have := hset (by simp [State.within, hst])
    simp [ht] at this

/-- Settles O49. -/
theorem storageChangesOnlyInACommit : Obligations.StorageChangesOnlyInACommit := by
  intro s t u hn hr h
  obtain ⟨-, sc, n, ht⟩ := turnStep_of_step hn hr h
  have kept := nvMem_turn ht
  exact ⟨kept, fun hp htiming => kept fun _ => not_commit_of_timing_unset hp htiming⟩

/-! ## The transcript (R24, R71) -/

/-- The seven symbols (R71). -/
abbrev symbols : List Byte :=
  [Config.symReady, Config.symAck, Config.symPage, Config.symTimeout, Config.symCsum, Config.symError, Config.symDone]

/-- Only a sending operation appends to the transcript. -/
theorem txLog_turn (h : TurnStep s u t) : t.txLog = s.txLog ∨ ∃ c ∈ symbols, t.txLog = s.txLog ++ [c] := by
  cases h with
  | sequencer h =>
    cases h with
    | sends h => exact .inr ⟨_, by cases h <;> decide, rfl⟩
    | sendsDone => exact .inr ⟨_, by decide, rfl⟩
    | _ => exact .inl rfl
  | _ => exact .inl rfl

/-- Settles O50. -/
theorem transcriptGrowsBySymbolsOnly : Obligations.TranscriptGrowsBySymbolsOnly := by
  intro s t u hn hr h
  obtain ⟨-, sc, n, ht⟩ := turnStep_of_step hn hr h
  have grown := txLog_turn ht
  exact grown

/-! ## The transport switched off (R195) -/

/-- What a turn leaves of the transport, and of what it has received, when both enables are clear. -/
def Silent (s : State) (u : Turn) (t : State) : Prop :=
  t.rxEn = false ∧ t.txEn = false ∧ t.txLog = s.txLog ∧ t.rxByte = s.rxByte ∧ t.pageBuf = s.pageBuf ∧
    t.csumSlot = s.csumSlot ∧
    (t.line = s.line ∨ (∃ b, u = .host b ∧ t.line = s.line ++ [b]) ∨ (u = .drop ∧ t.line = s.line.tail))

/-- With both enables clear no operation sends or receives, and none sets an enable. -/
theorem silent_sequencer (h : SeqStep s t) (hrx : s.rxEn = false) (htx : s.txEn = false) : Silent s .sequencer t := by
  cases h with
  | sends _ h | sendsDone _ h => simp [htx] at h
  | recvMagic _ h | recvCount _ h => simp [hrx] at h
  | disable => exact ⟨rfl, rfl, rfl, rfl, rfl, rfl, .inl rfl⟩
  | _ => exact ⟨hrx, htx, rfl, rfl, rfl, rfl, .inl rfl⟩

theorem silent_turn (h : TurnStep s u t) (hrx : s.rxEn = false) (htx : s.txEn = false) : Silent s u t := by
  cases h with
  | sequencer h => exact silent_sequencer h hrx htx
  | took _ h => simp [hrx] at h
  | host b => exact ⟨hrx, htx, rfl, rfl, rfl, rfl, .inr (.inl ⟨b, rfl, rfl⟩)⟩
  | dropped => exact ⟨hrx, htx, rfl, rfl, rfl, rfl, .inr (.inr ⟨rfl, rfl⟩)⟩
  | idle | nothingDropped | transport => exact ⟨hrx, htx, rfl, rfl, rfl, rfl, .inl rfl⟩

/-- Settles O51. -/
theorem disabledTransportStaysSilent : Obligations.DisabledTransportStaysSilent := by
  refine ⟨fun _ => rfl, fun s t u hrx htx hn hr h => ?_⟩
  obtain ⟨-, sc, n, ht⟩ := turnStep_of_step hn hr h
  have silent := silent_turn ht hrx htx
  exact silent

/-! ## The end of a run (R177) -/

/-- What the end of a run leaves in place. -/
def StaysOver (s t : State) : Prop :=
  t.over ∧ t.handoff = s.handoff ∧ t.vtbr = s.vtbr ∧ t.nvMem = s.nvMem ∧ t.txLog = s.txLog

/-- The sequencer stays where it is. -/
theorem staysOver_sequencer (h : exec (fetch s) s = .next t) (hover : s.over) : StaysOver s t := by
  rw [fetch, hover.1] at h
  cases h
  exact ⟨hover, rfl, rfl, rfl, rfl⟩

/-- No agent but the sequencer writes what the end of a run speaks of. -/
theorem staysOver_turn (h : TurnStep s u t) (hu : u ≠ .sequencer) (hover : s.over) : StaysOver s t := by
  cases h with
  | sequencer => exact absurd rfl hu
  | _ => exact ⟨hover, rfl, rfl, rfl, rfl⟩

/-- Settles O32. -/
theorem handoffIsTerminal : Obligations.HandoffIsTerminal := by
  refine ⟨fun _ => rfl, fun s t u hover hn hr h => ?_⟩
  by_cases hu : u = .sequencer
  · subst hu
    obtain ⟨sc, n, hs⟩ := Interfaces.step_of_turn hn
    rw [hs] at h
    exact staysOver_sequencer (s := { s with script := sc, turnCount := n }) (Interfaces.unlessFaulted_next h) hover
  · obtain ⟨-, sc, n, ht⟩ := turnStep_of_step hn hr h
    have stays := staysOver_turn ht hu hover
    exact stays

/-! ## A byte of the host commutes with the sequencer (R51, R218) -/

/-- The same end of a transaction, with byte `b` at the end of the line. -/
def appendTxn {α : Type} (b : Byte) : Txn α → Txn α
  | .done a u => .done a (hostAppend [b] u)
  | .waits => .waits
  | .faults r u => .faults r (hostAppend [b] u)

/-- If `o` is a next state, `o'` is that state with byte `b` at the end of its line. -/
def Commutes (b : Byte) (o o' : Host.Outcome State Fault Refusal) : Prop :=
  ∀ t, o = .next t → o' = .next (hostAppend [b] t)

variable {b : Byte}

theorem commutes_next (b : Byte) (s : State) : Commutes b (.next s) (.next (hostAppend [b] s)) := by
  rintro _ ⟨⟩
  rfl

theorem commutes_finish {α : Type} {x x' : Txn α} {k k' : α → State → State} (hx : x' = appendTxn b x)
    (hk : ∀ a v, k' a (hostAppend [b] v) = hostAppend [b] (k a v)) :
    Commutes b (x.finish s k) (x'.finish (hostAppend [b] s) k') := by
  subst hx
  cases x with
  | done a v =>
    simp only [appendTxn, finish_done, hk]
    exact commutes_next b _
  | waits => exact commutes_next b s
  | faults r v => exact commutes_next b (v.recordFault r)

theorem txSend_hostAppend (c : Byte) (s : State) : txSend c (hostAppend [b] s) = appendTxn b (txSend c s) := by
  unfold txSend
  simp only [apply_ite (appendTxn b)]
  rfl

/-- A receive with a byte on the line takes the same byte (R194). -/
theorem rxRecv_hostAppend (h : s.line ≠ []) : rxRecv (hostAppend [b] s) = appendTxn b (rxRecv s) := by
  obtain ⟨c, rest, hl⟩ := List.exists_cons_of_ne_nil h
  simp only [rxRecv, apply_ite (appendTxn b), hostAppend_line, hl]
  rfl

theorem nvErasePage_hostAppend (a : Word) (s : State) :
    nvErasePage a (hostAppend [b] s) = appendTxn b (nvErasePage a s) := by
  unfold nvErasePage
  simp only [apply_ite (appendTxn b)]
  rfl

theorem nvProgramWord_hostAppend (a d : Word) (s : State) :
    nvProgramWord a d (hostAppend [b] s) = appendTxn b (nvProgramWord a d s) := by
  unfold nvProgramWord
  simp only [apply_ite (appendTxn b)]
  rfl

theorem nvRead32_hostAppend (a : Word) (s : State) :
    nvRead32 a (hostAppend [b] s) = appendTxn b (nvRead32 a s) := by
  simp only [nvRead32, apply_ite (appendTxn b), hostAppend_nvMem]
  cases readWord s.nvMem a.toNat <;> rfl

theorem settle_hostAppend (here next : BitVec 5) (s : State) :
    settle here next (hostAppend [b] s) = hostAppend [b] (settle here next s) := by
  simp only [settle, apply_ite (hostAppend [b])]
  rfl

/-- Every operation but a receive on an empty line commutes with the host's byte. -/
theorem commutes_exec {i : Instr} (hi : i.space = .state) (hl : i = .sRecvMagic ∨ i = .sRecvCount → s.line ≠ []) :
    Commutes b (exec i s) (exec i (hostAppend [b] s)) := by
  cases i with
  | sAnnounce | sAck | sReqPage | sToTx | sReqCsum | sErrTx | sDoneTx =>
    exact commutes_finish (txSend_hostAppend _ s) fun _ _ => rfl
  | sRecvMagic | sRecvCount => exact commutes_finish (rxRecv_hostAppend (hl (by simp))) fun _ _ => rfl
  | sErase => exact commutes_finish (nvErasePage_hostAppend _ s) fun _ _ => rfl
  | sProgram => exact commutes_finish (nvProgramWord_hostAppend _ _ s) fun _ _ => rfl
  | sBootRead => exact commutes_finish (nvRead32_hostAppend _ s) fun _ _ => rfl
  | sSettleA | sSettleF =>
    intro t h
    cases h
    exact congrArg _ (settle_hostAppend _ _ s)
  | sAuth =>
    rw [exec_sAuth, exec_sAuth]
    exact commutes_next b _
  | sVerify =>
    rw [exec_sVerify, exec_sVerify]
    exact commutes_next b _
  | sAwaitPage =>
    cases h : s.sdDone
    · rw [exec_sAwaitPage_clear h, exec_sAwaitPage_clear (s := hostAppend [b] s) h]
      exact commutes_next b _
    · rw [exec_sAwaitPage_set h, exec_sAwaitPage_set (s := hostAppend [b] s) h]
      exact commutes_next b _
  | sUnlock | sSetTiming | sLoopTest | sCrcReset | sArmPage | sToRearm | sCrcCalc | sArmCsum | sAwaitCsum | sAdvance
  | sLock | sDisable | sBootVtbr | sBootJump | sHandoff => exact commutes_next b _
  | _ => cases hi

/-- Settles O52. -/
theorem hostBytesCommuteWithTheSequencer : Obligations.HostBytesCommuteWithTheSequencer :=
  fun _ t _ _ hi hl h => commutes_exec hi hl t h

end Sys2Proof.Rules

/-! PROOFS about runs of one agent: the settling delay, the timeout's budget and the host's page (`40_handshake.md`
R101, `41_page_stream.md` R125, `44_interfaces.md` R218). -/

namespace Sys2Proof.Runs

open Sys2Proof Sys2Proof.Machine Sys2Proof.Laws Sys2Proof.Turns

variable {s t : State} {u : Turn} {i : Instr} {n : Nat}

/-! ## Runs of one agent's turns -/

theorem runSteps_next (h : step s = .next t) (n : Nat) : runSteps (n + 1) s = runSteps n t := by
  simp [runSteps, h]

theorem step_withTurns (s : State) (n : Nat) (u : Turn) :
    step (s.withTurns (n + 1) u) = runTurn u (s.withTurns n u) :=
  step_cons (s := s.withTurns (n + 1) u) rfl

/-- The turn of `u` at `s` leaves `t`, whatever turns come after it. -/
def Leads (u : Turn) (s t : State) : Prop := ∀ n, runTurn u (s.withTurns n u) = .next (t.withTurns n u)

/-- A run of `k` turns goes through the states that `R 0`, `R 1`, …, `R k` describe. -/
theorem runSteps_leads {R : Nat → State → Prop} {k : Nat}
    (hR : ∀ j, j < k → ∀ s, R j s → ∃ t, Leads u s t ∧ R (j + 1) t) (h0 : R 0 s) :
    ∃ t, R k t ∧ ∀ m, runSteps k (s.withTurns (k + m) u) = .next (t.withTurns m u) := by
  induction k generalizing R s with
  | zero => exact ⟨s, h0, fun m => by rw [Nat.zero_add]; rfl⟩
  | succ k ih =>
    obtain ⟨v, hlead, hv⟩ := hR 0 (Nat.succ_pos k) s h0
    obtain ⟨t, ht, hrun⟩ := ih (R := fun j => R (j + 1)) (fun j hj => hR (j + 1) (Nat.succ_lt_succ hj)) hv
    refine ⟨t, ht, fun m => ?_⟩
    rw [Nat.succ_add, runSteps_next ((step_withTurns s (k + m) u).trans (hlead (k + m)))]
    exact hrun m

/-- A run through known states: `k` of `N` turns lead from the first to the `k`-th. -/
theorem runSteps_sequence {x : Nat → State} {N k : Nat} (hx : ∀ j, j < N → Leads u (x j) (x (j + 1))) (hk : k ≤ N) :
    runSteps k ((x 0).withTurns N u) = .next ((x k).withTurns (N - k) u) := by
  obtain ⟨t, rfl, hrun⟩ := runSteps_leads (R := fun j t => t = x j) (u := u) (k := k) (s := x 0)
    (by rintro j hj _ rfl; exact ⟨_, hx j (by omega), rfl⟩) rfl
  have h := hrun (N - k)
  rwa [Nat.add_sub_cancel' hk] at h

/-- The sequencer's turn at an operation that answers `t`. -/
theorem leads_sequencer (hf : s.fault = none) (hi : fetch s = i)
    (hx : ∀ n, exec i (s.withTurns n .sequencer) = .next (t.withTurns n .sequencer)) : Leads .sequencer s t := by
  intro n
  have hi' : fetch (s.withTurns n .sequencer) = i := hi
  rw [runTurn, unlessFaulted_none (s := s.withTurns n .sequencer) hf, hi', hx]

/-! ## The settling delay (R101, R172) -/

/-- The state after `j` of the `n + 1` turns of a delay. -/
def settled (s : State) (next : BitVec 5) (n j : Nat) : State :=
  if j ≤ n then { s with dly := n - j } else { s with dly := 0, st := next }

theorem leads_settled {here next : BitVec 5} (hx : ∀ s, exec i s = .next (settle here next s))
    (hi : fetch s = i) (hf : s.fault = none) (hst : s.st = here) {j : Nat} (hj : j < n + 1) :
    Leads .sequencer (settled s next n j) (settled s next n (j + 1)) := by
  have hjn : j ≤ n := Nat.lt_succ_iff.1 hj
  simp only [settled, if_pos hjn]
  refine leads_sequencer (i := i) hf hi fun m => (hx _).trans (congrArg _ ?_)
  obtain ⟨hd, h⟩ | ⟨hd, h⟩ := settle_cases here next (State.withTurns { s with dly := n - j } m .sequencer) <;> rw [h]
  · have hlt : j + 1 ≤ n := by
      have hd : 0 < n - j := hd
      omega
    rw [if_pos hlt, ← hst]
    rfl
  · have hlt : ¬ j + 1 ≤ n := by
      have hd : n - j = 0 := hd
      omega
    rw [if_neg hlt]
    have hd : n - j = 0 := hd
    simp [State.goto, State.withTurns, hd]

/-- A delay of `n` stays at its operation for `n` turns and leaves it with the next. -/
theorem runSteps_settle {here next : BitVec 5} (hx : ∀ s, exec i s = .next (settle here next s))
    (hi : decodeState here = i) (hf : s.fault = none) (hd : s.dly = n) (hst : s.st = here) :
    runSteps (n + 1) (s.withTurns (n + 1) .sequencer) = .next { s with dly := 0, st := next, script := [] } ∧
    (∀ k, k ≤ n → ∃ t, runSteps k (s.withTurns (n + 1) .sequencer) = .next t ∧ t.st = here) := by
  have start : settled s next n 0 = s := by simp [settled, ← hd]
  have run : ∀ k, k ≤ n + 1 → runSteps k (s.withTurns (n + 1) .sequencer) =
      .next ((settled s next n k).withTurns (n + 1 - k) .sequencer) := fun k hk => by
    have h := runSteps_sequence (x := settled s next n)
      (fun j hj => leads_settled hx (by rw [fetch, hst, hi]) hf hst hj) hk
    rwa [start] at h
  refine ⟨?_, fun k hk => ⟨_, run k (by omega), ?_⟩⟩
  · simpa [settled, State.withTurns] using run (n + 1) le_rfl
  · simp [settled, hk, State.withTurns, hst]

/-- Settles O13. -/
theorem settlingDelayTakesItsLengthAndOne : Obligations.SettlingDelayTakesItsLengthAndOne := fun _ _ hf hd =>
  ⟨runSteps_settle (i := .sSettleA) (fun _ => rfl) rfl hf hd, runSteps_settle (i := .sSettleF) (fun _ => rfl) rfl hf hd⟩

/-! ## The budget (R125) -/

/-- The state after `j` polls with the flag clear, of a budget of `n`. -/
def polled (s : State) (n j : Nat) : State :=
  { s with budget := n - j, st := if n - j = 0 then Code.toRearm else Code.awaitPage }

theorem leads_polled (hf : s.fault = none) (hdone : s.sdDone = false) {j : Nat} (hj : j < n) :
    Leads .sequencer (polled s n j) (polled s n (j + 1)) := by
  have hpos : 0 < n - j := by omega
  have hst : (polled s n j).st = Code.awaitPage := if_neg (by omega)
  have hi : fetch (polled s n j) = .sAwaitPage := by rw [fetch, hst]; rfl
  refine leads_sequencer (i := .sAwaitPage) hf hi fun m => ?_
  have hless : budgetLess (State.withTurns (polled s n j) m .sequencer) = n - (j + 1) :=
    (budgetLess_of_pos hpos).trans (Nat.sub_sub n j 1)
  rw [exec_sAwaitPage_clear (s := State.withTurns (polled s n j) m .sequencer) hdone, hless]
  rfl

/-- Settles O23. -/
theorem timeoutComesAfterTheWholeBudget : Obligations.TimeoutComesAfterTheWholeBudget := by
  intro s n hf hst hdone hb hn
  have start : polled s n 0 = s := by simp [polled, ← hb, ← hst, show s.budget ≠ 0 by omega]
  have run : ∀ k, k ≤ n → runSteps k (s.withTurns n .sequencer) =
      .next ((polled s n k).withTurns (n - k) .sequencer) := fun k hk => by
    have h := runSteps_sequence (x := polled s n) (fun j hj => leads_polled hf hdone hj) hk
    rwa [start] at h
  refine ⟨?_, fun k hk => ⟨_, run k hk.le, if_neg (by omega), rfl, rfl, rfl⟩⟩
  simpa [polled, State.withTurns] using run n le_rfl

/-! ## The host's page (R218) -/

theorem runSteps_host (b : List Byte) (hf : s.fault = none) (hs : s.script = b.map fun x => Event.turn (.host x)) :
    runSteps b.length s = .next { s with line := s.line ++ b, script := [] } := by
  induction b generalizing s with
  | nil =>
    simp only [List.map_nil] at hs
    simp [runSteps, ← hs]
  | cons x b ih =>
    have hstep : step s = .next { s with script := b.map fun x => Event.turn (.host x), line := s.line ++ [x] } :=
      (step_cons hs).trans (unlessFaulted_none hf _)
    refine (runSteps_next hstep b.length).trans ?_
    simpa using ih (s := { s with script := b.map fun x => Event.turn (.host x), line := s.line ++ [x] }) hf rfl

/-- Settles O40. -/
theorem pageFrameIsItsBytesOneByOne : Obligations.PageFrameIsItsBytesOneByOne :=
  fun _ b hf hs => ⟨_, rfl, runSteps_host b hf hs⟩

end Sys2Proof.Runs

/-! PROOFS about the two long loops: a commit writes the page buffer to storage (`42_flash_commit.md` R155), and a
transfer fills its destination from the line (`44_interfaces.md` R203). -/

namespace Sys2Proof.Runs

open Sys2Proof Sys2Proof.Machine Sys2Proof.Laws Sys2Proof.Turns Sys2Proof.Invariants

variable {s t : State}

/-! ## The commit (R150 to R155) -/

/-- The state of a commit that has left `m` in storage and programmed `j` words. -/
def commitState (s : State) (m : Memory) (j : Nat) : State :=
  { s with nvMem := m, widx := BitVec.ofNat 9 j, st := if j = 256 then Code.advance else Code.program }

/-- After `j` programs of the commit from `s`: the page is that far, and no byte outside it has changed. -/
def CommitReaches (s : State) (j : Nat) (t : State) : Prop :=
  ∃ m, t = commitState s m j ∧ Committed m s.cursor.toNat s.pageBuf s.cfg.val.erased j ∧
    ∀ b, b < s.cursor.toNat ∨ s.cursor.toNat + 1024 ≤ b → readByte m b = readByte s.nvMem b

theorem commit_erases (hf : s.fault = none) (hst : s.st = Code.erase) (hl : s.nvLocked = false)
    (ha : s.cursor.toNat % 1024 = 0) (hr : s.cursor.toNat + 1024 ≤ s.cfg.val.flashEnd.toNat) :
    ∃ t, Leads .sequencer s t ∧ CommitReaches s 0 t := by
  refine ⟨commitState s (erasePage s.nvMem s.cursor.toNat s.cfg.val.erased) 0, leads_sequencer hf
    (show fetch s = .sErase by rw [fetch, hst]; rfl) fun n => finish_nvErasePage _ ha hl hr,
    _, rfl, committed_erasePage _ _ _ _, fun b hb => ?_⟩
  rw [readByte_erasePage, if_neg (by omega)]

/-- What the next program of the commit finds: its address, its data and an erased word. -/
theorem commitState_operands {m : Memory} {j : Nat} (hj : j < 256)
    (hr : s.cursor.toNat + 1024 ≤ s.cfg.val.flashEnd.toNat)
    (hpage : Committed m s.cursor.toNat s.pageBuf s.cfg.val.erased j) :
    (commitState s m j).widx.toNat = j ∧ (programAddr (commitState s m j)).toNat = s.cursor.toNat + 4 * j ∧
    programData (commitState s m j) = s.pageBuf[j] ∧ programDraws (commitState s m j) = s.draws ∧
    readWord m (s.cursor.toNat + 4 * j) = some s.cfg.val.erased := by
  have hw : (commitState s m j).widx.toNat = j := Nat.mod_eq_of_lt (by omega)
  obtain ⟨-, -, -, hend, -⟩ := s.cfg.ok
  have haddr := programAddr_toNat (s := commitState s m j) (by omega) (hr.trans hend)
  obtain ⟨hdata, hdraws⟩ := programData_of_lt (s := commitState s m j) (by omega)
  simp only [hw] at haddr hdata
  exact ⟨hw, haddr, hdata, hdraws, hpage.2 ⟨j, hj⟩ le_rfl⟩

theorem exec_sProgram_commitState {m : Memory} {j : Nat} (hj : j < 256) (hl : s.nvLocked = false)
    (ha : s.cursor.toNat % 1024 = 0) (hr : s.cursor.toNat + 1024 ≤ s.cfg.val.flashEnd.toNat)
    (hpage : Committed m s.cursor.toNat s.pageBuf s.cfg.val.erased j) : exec .sProgram (commitState s m j) =
      .next (commitState s (writeWord m (s.cursor.toNat + 4 * j) s.pageBuf[j]) (j + 1)) := by
  obtain ⟨hw, haddr, hdata, hdraws, herased⟩ := commitState_operands hj hr hpage
  have halign : (programAddr (commitState s m j)).toNat % 4 = 0 := by omega
  have hroom : (programAddr (commitState s m j)).toNat + 4 ≤ s.cfg.val.flashEnd.toNat := by omega
  have hlast : j + 1 = 256 ↔ j = 255 := by omega
  rw [exec_sProgram halign hl hroom (haddr ▸ herased), haddr, hdata, hdraws, hw]
  simp [commitState, BitVec.ofNat_add, hlast]

theorem commit_programs (hf : s.fault = none) (hl : s.nvLocked = false) (ha : s.cursor.toNat % 1024 = 0)
    (hr : s.cursor.toNat + 1024 ≤ s.cfg.val.flashEnd.toNat) {j : Nat} (hj : j < 256) (hc : CommitReaches s j t) :
    ∃ t', Leads .sequencer t t' ∧ CommitReaches s (j + 1) t' := by
  obtain ⟨m, rfl, hpage, hout⟩ := hc
  have hst : (commitState s m j).st = Code.program := if_neg (by omega)
  refine ⟨commitState s (writeWord m (s.cursor.toNat + 4 * j) s.pageBuf[j]) (j + 1), leads_sequencer hf
    (show fetch (commitState s m j) = .sProgram by rw [fetch, hst]; rfl) fun n => ?_,
    _, rfl, committed_writeWord hj hpage, fun b hb => ?_⟩
  · exact exec_sProgram_commitState (s := s.withTurns n .sequencer) hj hl ha hr hpage
  · rw [readByte_writeWord, if_neg (by omega)]
    exact hout b hb

/-- The four bytes of a word that reads, at their addresses (R43). -/
theorem readByte_of_readWord {m : Memory} {a k : Nat} {w : Word} (h : readWord m a = some w) (hk : k < 4) :
    readByte m (a + k) = some (byteOf w k) := by
  unfold readWord at h
  split at h
  · next b0 b1 b2 b3 h0 h1 h2 h3 =>
    cases h
    obtain rfl | rfl | rfl | rfl : k = 0 ∨ k = 1 ∨ k = 2 ∨ k = 3 := by omega
    · simpa using h0
    · simpa using h1
    · simpa using h2
    · simpa using h3
  · cases h

/-- A page that reads word for word as the buffer does so byte for byte (R44, R47). -/
theorem readByte_page {m : Memory} {a j : Nat} {buf : Vector Word 256}
    (h : ∀ i : Fin 256, readWord m (a + 4 * i.val) = some buf[i.val]) (hj : j < 1024) :
    readByte m (a + j) = pageByte buf j := by
  have hq : j / 4 < 256 := by omega
  have hr : j % 4 < 4 := Nat.mod_lt _ (by decide)
  have hbyte := readByte_of_readWord (h ⟨j / 4, hq⟩) hr
  have hpage := Encoding.pageByte_word buf hq hr
  rw [show 4 * (j / 4) + j % 4 = j by omega] at hpage
  rw [hpage, ← hbyte]
  congr 1
  show a + j = a + 4 * (j / 4) + j % 4
  omega

/-- Settles O29: the erase, and then 256 programs, each one word further. -/
theorem commitMakesThePageEqualTheBuffer : Obligations.CommitMakesThePageEqualTheBuffer := by
  intro s hf hst hl ha hr
  obtain ⟨v, hlead, hv⟩ := commit_erases hf hst hl ha hr
  obtain ⟨_, ⟨m, rfl, ⟨hpage, -⟩, hout⟩, hrun⟩ := runSteps_leads (u := .sequencer) (R := CommitReaches s) (k := 256)
    (fun j hj _ => commit_programs hf hl ha hr hj) hv
  have hwords : ∀ i : Fin 256, readWord m (s.cursor.toNat + 4 * i.val) = some s.pageBuf[i.val] :=
    fun i => hpage i i.isLt
  refine ⟨m, ?_, hwords, fun j => readByte_page hwords, hout⟩
  rw [runSteps_next ((step_withTurns s 256 .sequencer).trans (hlead 256))]
  exact hrun 0

/-! ## The transfers (R46, R203) -/

/-- The byte of a destination at an index (R44, R45). -/
def destByte (d : Dest) (s : State) (k : Nat) : Option Byte :=
  match d with
  | .pageBuf => pageByte s.pageBuf k
  | .csumSlot => if k < 4 then some (byteOf s.csumSlot k) else none

/-- The driver stores its byte at the index of its count, and no other byte of the destination (R203). -/
theorem destByte_driverTake {b : Byte} {rest : List Byte} (hc : s.sdCnt < s.sdDest.size) (k : Nat) :
    destByte s.sdDest (driverTake b rest s) k = if k = s.sdCnt then some b else destByte s.sdDest s k := by
  cases hd : s.sdDest with
  | pageBuf =>
    rw [hd] at hc
    simp [destByte, driverTake_pageBuf, hd, pageByte_setPageByte _ _ _ _ hc]
  | csumSlot =>
    rw [hd] at hc
    simp only [destByte, driverTake_csumSlot, hd, if_true]
    by_cases hk : k < 4
    · simp only [hk, if_true, byteOf_setByteOf _ _ _ _ hc hk]
      split <;> rfl
    · simp only [hk, if_false]
      rw [if_neg (by rw [size_csumSlot] at hc; omega)]

/-- A driver that is armed, with the receiver on, a byte on the line and room for it, takes the byte. -/
theorem driverTurn_takes {b : Byte} {rest : List Byte} (ha : s.sdArmed = true) (hrx : s.rxEn = true)
    (hl : s.line = b :: rest) (hc : s.sdCnt < s.sdDest.size) : driverTurn s = .next (driverTake b rest s) := by
  simp only [driverTurn, ha, hrx, hl, hc, Bool.and_self, if_true]

/-- The state of a transfer that has left `p` and `c` in the buffers and `l` on the line, and counted `j` bytes. -/
def transferState (s : State) (p : Vector Word 256) (c : Word) (l : List Byte) (j : Nat) : State :=
  { s with
    pageBuf := p, csumSlot := c, line := l, sdCnt := j,
    sdDone := decide (j = s.sdLen), sdArmed := decide (j < s.sdLen) }

/-- After `j` of the bytes `bs` of a transfer from `s`: the first `j` stand in the destination, the others on the line,
and the other destination is as it was. -/
def TransferReaches (s : State) (bs rest : List Byte) (j : Nat) (t : State) : Prop :=
  ∃ p c, t = transferState s p c (bs.drop j ++ rest) j ∧ (∀ k, k < j → destByte s.sdDest t k = bs[k]?) ∧
    (s.sdDest = .csumSlot → p = s.pageBuf) ∧ (s.sdDest = .pageBuf → c = s.csumSlot)

/-- The driver's turn takes the next byte of the transfer. -/
theorem transfer_takes {bs rest : List Byte} (hf : s.fault = none) (hrx : s.rxEn = true)
    (hlen : s.sdLen = s.sdDest.size) {j : Nat} (hj : j < s.sdLen) (hjb : j < bs.length)
    (h : TransferReaches s bs rest j t) :
    ∃ t', Leads .driver t t' ∧ TransferReaches s bs rest (j + 1) t' := by
  obtain ⟨p, c, rfl, hfilled, hpage, hslot⟩ := h
  have hline : (transferState s p c (bs.drop j ++ rest) j).line = bs[j] :: (bs.drop (j + 1) ++ rest) := by
    show bs.drop j ++ rest = _
    rw [List.drop_eq_getElem_cons hjb, List.cons_append]
  have harmed : (transferState s p c (bs.drop j ++ rest) j).sdArmed = true := decide_eq_true hj
  have hnext : driverTake bs[j] (bs.drop (j + 1) ++ rest) (transferState s p c (bs.drop j ++ rest) j) =
      transferState s (if s.sdDest = .pageBuf then setPageByte p j bs[j] else p)
        (if s.sdDest = .csumSlot then setByteOf c j bs[j] else c) (bs.drop (j + 1) ++ rest) (j + 1) := by
    rw [driverTake_eq]
    by_cases hlast : j + 1 = s.sdLen
    · cases hd : s.sdDest <;> simp [transferState, hd, hlast]
    · have h1 : j ≠ s.sdLen := by omega
      have h2 : j + 1 < s.sdLen := by omega
      cases hd : s.sdDest <;> simp [transferState, hd, hlast, h1, h2, hj]
  refine ⟨_, fun n => ?_, _, _, hnext, fun k hk => ?_, fun hd => ?_, fun hd => ?_⟩
  · have hturn := driverTurn_takes (s := (transferState s p c (bs.drop j ++ rest) j).withTurns n .driver)
      harmed hrx hline (hlen ▸ hj)
    rw [runTurn, unlessFaulted_none (s := (transferState s p c (bs.drop j ++ rest) j).withTurns n .driver) hf, hturn,
      driverTake_eq, driverTake_eq]
    rfl
  · have hbyte := destByte_driverTake (s := transferState s p c (bs.drop j ++ rest) j) (b := bs[j])
      (rest := bs.drop (j + 1) ++ rest) (hlen ▸ hj) k
    refine hbyte.trans ?_
    show (if k = j then _ else _) = _
    split
    · subst k
      rw [List.getElem?_eq_getElem hjb]
    · exact hfilled k (by omega)
  · simp [hd, hpage]
  · simp [hd, hslot]

/-- A driver freshly armed over a line is at the start of its transfer. -/
theorem transferReaches_zero {bs rest : List Byte} (ha : s.sdArmed = true) (hdone : s.sdDone = false)
    (hcnt : s.sdCnt = 0) (hpos : 0 < s.sdLen) (hl : s.line = bs ++ rest) : TransferReaches s bs rest 0 s := by
  refine ⟨s.pageBuf, s.csumSlot, ?_, fun k hk => absurd hk (Nat.not_lt_zero k), fun _ => rfl, fun _ => rfl⟩
  have hdone' : s.sdDone = decide (0 = s.sdLen) := by simp [hdone, hpos.ne]
  have ha' : s.sdArmed = decide (0 < s.sdLen) := by simp [ha, hpos]
  rw [transferState, List.drop_zero, ← hl, ← hdone', ← ha', ← hcnt]

/-- A transfer over the whole of its destination fills it in line order, sets the flag and leaves the driver idle. -/
theorem runSteps_transfer {bs rest : List Byte} (hf : s.fault = none) (hrx : s.rxEn = true) (ha : s.sdArmed = true)
    (hdone : s.sdDone = false) (hcnt : s.sdCnt = 0) (hlen : s.sdLen = s.sdDest.size) (hbs : bs.length = s.sdLen)
    (hl : s.line = bs ++ rest) :
    ∃ p c, runSteps s.sdLen (s.withTurns s.sdLen .driver) =
        .next ((transferState s p c rest s.sdLen).withTurns 0 .driver) ∧
      (∀ k, k < s.sdLen → destByte s.sdDest (transferState s p c rest s.sdLen) k = bs[k]?) ∧
      (s.sdDest = .csumSlot → p = s.pageBuf) ∧ (s.sdDest = .pageBuf → c = s.csumSlot) := by
  have hpos : 0 < s.sdLen := by rw [hlen]; cases s.sdDest <;> decide
  obtain ⟨_, ⟨p, c, rfl, hfilled, hpage, hslot⟩, hrun⟩ := runSteps_leads (u := .driver) (R := TransferReaches s bs rest)
    (k := s.sdLen) (fun j hj _ => transfer_takes hf hrx hlen hj (hbs ▸ hj))
    (transferReaches_zero ha hdone hcnt hpos hl)
  have hend : bs.drop s.sdLen ++ rest = rest := by simp [← hbs]
  rw [hend] at hrun hfilled
  exact ⟨p, c, hrun 0, hfilled, hpage, hslot⟩

/-- Settles O44. -/
theorem pageTransferFillsTheBufferInLineOrder : Obligations.PageTransferFillsTheBufferInLineOrder := by
  intro s bs rest hf hrx ha hdone hd hlen hcnt hbs hl
  obtain ⟨p, c, hrun, hfilled, -, hslot⟩ :=
    runSteps_transfer hf hrx ha hdone hcnt (by simp [hlen, hd]) (hbs.trans hlen.symm) hl
  rw [hlen, hslot hd] at hrun
  rw [hlen, hd] at hfilled
  refine ⟨p, hrun.trans ?_, hfilled⟩
  simp [transferState, State.withTurns, hlen]

/-- Settles O45. -/
theorem checksumTransferAssemblesTheSlot : Obligations.ChecksumTransferAssemblesTheSlot := by
  intro s c0 c1 c2 c3 rest hf hrx ha hdone hd hlen hcnt hl
  obtain ⟨p, c, hrun, hfilled, hpage, -⟩ := runSteps_transfer (bs := [c0, c1, c2, c3]) hf hrx ha hdone hcnt
    (by simp [hlen, hd]) hlen.symm hl
  rw [hlen, hpage hd] at hrun
  rw [hlen, hd] at hfilled
  have hslot : c = c3 ++ c2 ++ c1 ++ c0 := by
    refine word_ext fun j hj => Option.some.inj ?_
    have h : (if j < 4 then some (byteOf c j) else none) = [c0, c1, c2, c3][j]? := hfilled j hj
    rw [← (if_pos hj : (if j < 4 then some (byteOf c j) else none) = _), h]
    obtain rfl | rfl | rfl | rfl : j = 0 ∨ j = 1 ∨ j = 2 ∨ j = 3 := by omega
    · exact congrArg some (byteOf_leWord_zero c0 c1 c2 c3).symm
    · exact congrArg some (byteOf_leWord_one c0 c1 c2 c3).symm
    · exact congrArg some (byteOf_leWord_two c0 c1 c2 c3).symm
    · exact congrArg some (byteOf_leWord_three c0 c1 c2 c3).symm
  rw [hrun, hslot]
  simp [transferState, State.withTurns, hlen]

end Sys2Proof.Runs

/-! PROOFS about single operations and commands, each from the rule of the shared operation it issues, and about reset,
power-on and the order of events (`10_state.md` R30, `60_exceptions.md` R245, `70_reset_and_hazards.md` R261,
`40_handshake.md`, `41_page_stream.md`, `42_flash_commit.md`, `43_finalize_boot.md`, `44_interfaces.md`). -/

namespace Sys2Proof.Operations

open Sys2Proof Sys2Proof.Machine Sys2Proof.Laws Sys2Proof.Turns

/-! ## Storage commands (R48, R150 to R153, R210 to R215) -/

/-- Settles O24. -/
theorem eraseDestroysExactlyItsPage : Obligations.EraseDestroysExactlyItsPage := by
  intro s a ha hl hr
  refine ⟨_, finish_nvErasePage _ ha hl hr, ?_, fun i hi => readWord_erasePage _ _ _ i hi, fun b hb => ?_⟩
  · rintro rfl
    exact finish_nvErasePage _ ha hl hr
  · rw [readByte_erasePage, if_neg (by omega)]

/-- Settles O25. -/
theorem eraseFaultsChangeNothing : Obligations.EraseFaultsChangeNothing := by
  rintro s a i (rfl | ⟨rfl, rfl⟩) <;>
    exact ⟨finish_nvErasePage_misaligned _, finish_nvErasePage_locked _, finish_nvErasePage_outOfRange _⟩

/-- Settles O26: `S_PROGRAM` is the program of its own operands. -/
theorem programStoresExactlyItsWord : Obligations.ProgramStoresExactlyItsWord := by
  intro s a d ha hl hr he
  refine ⟨_, finish_nvProgramWord _ ha hl hr he, ?_, ?_, readWord_writeWord_self _ _ _, fun b hb => ?_⟩
  · rintro hw rfl hd
    obtain ⟨hdata, hdraws⟩ := programData_of_lt hw
    obtain rfl : s.pageBuf[s.widx.toNat] = d := by simpa [hw] using hd
    rw [exec_sProgram ha hl hr he, hdata, hdraws]
  · rintro hw rfl rfl
    obtain ⟨hdata, hdraws⟩ := programData_of_ge hw
    rw [exec_sProgram ha hl hr he, hdata, hdraws, if_neg (by omega)]
  · rw [readByte_writeWord, if_neg (by omega)]

/-- Settles O27: the checks of the two programs are the same, and only the last one touches storage. -/
theorem programFaultsStoreNothing : Obligations.ProgramFaultsStoreNothing := by
  rintro s a d i (rfl | ⟨rfl, rfl⟩) <;>
    exact ⟨finish_nvProgramWord_misaligned _, finish_nvProgramWord_locked _, finish_nvProgramWord_outOfRange _,
      fun ha hl hr he => ⟨_, finish_nvProgramWord_notErased _ ha hl hr he, readByte_forget _ _ _⟩⟩

/-- Settles O28. -/
theorem advanceMovesTheSessionByOnePage : Obligations.AdvanceMovesTheSessionByOnePage := by
  refine fun s => ⟨rfl, fun hpos hroom => ⟨_, rfl, ?_, ?_⟩⟩
  · show (s.cursor + 1024#32).toNat = s.cursor.toNat + 1024
    rw [BitVec.toNat_add, BitVec.toNat_ofNat]
    omega
  · show (s.remaining - 1#8).toNat + 1 = s.remaining.toNat
    bv_omega

/-- Settles O30: a read has no lock to check. -/
theorem readReturnsTheWordOrADraw : Obligations.ReadReturnsTheWordOrADraw := by
  refine fun s a ha hr => ⟨fun w hw => ⟨finish_nvRead32_some _ ha hr hw, ?_⟩,
    fun hw => ⟨finish_nvRead32_none _ ha hr hw, ?_⟩⟩
  · rintro rfl
    exact finish_nvRead32_some _ ha hr hw
  · rintro rfl
    exact finish_nvRead32_none _ ha hr hw

/-- Settles O31. -/
theorem readFaultsChangeNothing : Obligations.ReadFaultsChangeNothing := fun s _ =>
  ⟨finish_nvRead32_misaligned _, finish_nvRead32_outOfRange _, entryVectorAddr_inRange s⟩

/-! ## Transport (R192 to R196) -/

/-- Settles O14. -/
theorem sendingOperationsAppendTheirSymbol : Obligations.SendingOperationsAppendTheirSymbol := fun _ he hr =>
  ⟨finish_txSend _ he hr, finish_txSend _ he hr, finish_txSend _ he hr, finish_txSend _ he hr, finish_txSend _ he hr,
    finish_txSend _ he hr, finish_txSend _ he hr⟩

/-- Settles O38. -/
theorem symbolsAreSentAsTheirBytes : Obligations.SymbolsAreSentAsTheirBytes := fun _ _ he hr =>
  ⟨finish_txSend _ he hr, finish_txSend _ he hr, finish_txSend _ he hr, finish_txSend _ he hr, finish_txSend _ he hr,
    finish_txSend _ he hr, finish_txSend _ he hr, finish_txSend _ he hr⟩

/-- The sending forms of the table: each issues one `TX.SEND`. -/
theorem exec_sending {s : State} {b : Byte} {i : Instr}
    (hi : i ∈ [.sAnnounce, .sAck, .sReqPage, .sToTx, .sReqCsum, .sErrTx, .sDoneTx, .txSend b, .symReady, .symAck,
      .symPage, .symTimeout, .symCsum, .symError, .symDone]) :
    ∃ c k, exec i s = (txSend c s).finish s k := by
  simp only [List.mem_cons, List.not_mem_nil, or_false] at hi
  rcases hi with rfl | rfl | rfl | rfl | rfl | rfl | rfl | rfl | rfl | rfl | rfl | rfl | rfl | rfl | rfl <;>
    exact ⟨_, _, rfl⟩

/-- Settles O15. -/
theorem blockedOrDisabledSendsChangeNothing : Obligations.BlockedOrDisabledSendsChangeNothing := by
  intro s b i hi
  obtain ⟨c, k, hx⟩ := exec_sending (s := s) hi
  rw [hx]
  exact ⟨finish_txSend_waits k, finish_txSend_disabled k⟩

/-- Settles O16. -/
theorem receivesTakeTheOldestByte : Obligations.ReceivesTakeTheOldestByte := fun _ _ _ he ha hl =>
  ⟨finish_rxRecv _ he ha hl, finish_rxRecv _ he ha hl, finish_rxRecv _ he ha hl⟩

/-- Settles O17. -/
theorem blockedOrDisabledReceivesChangeNothing : Obligations.BlockedOrDisabledReceivesChangeNothing := by
  intro s i hi
  obtain ⟨k, hx⟩ : ∃ k, exec i s = (rxRecv s).finish s k := by
    simp only [List.mem_cons, List.not_mem_nil, or_false] at hi
    rcases hi with rfl | rfl | rfl <;> exact ⟨_, rfl⟩
  rw [hx]
  exact ⟨finish_rxRecv_waits k, finish_rxRecv_disabled k⟩

/-! ## The settling delay, the tests and the polls (R22, R101, R172) -/

/-- Settles O12. -/
theorem settlingDelayCountsDown : Obligations.SettlingDelayCountsDown := by
  have counts : ∀ (s : State) (here next : BitVec 5), 0 < s.dly →
      settle here next s = { s with dly := s.dly - 1, st := here } := fun s here next h => if_pos h
  have leaves : ∀ (s : State) (here next : BitVec 5), s.dly = 0 → settle here next s = { s with st := next } :=
    fun s here next h => if_neg (by omega)
  exact fun s => ⟨fun h => ⟨congrArg _ (counts s _ _ h), congrArg _ (counts s _ _ h)⟩,
    fun h => ⟨congrArg _ (leaves s _ _ h), congrArg _ (leaves s _ _ h)⟩⟩

/-- Settles O19. -/
theorem testsOnlyChooseTheNextOperation : Obligations.TestsOnlyChooseTheNextOperation := by
  refine fun s => ⟨exec_sAuth s, ?_, exec_sAwaitCsum s, exec_sVerify s⟩
  have hzero : s.remaining.toNat = 0 ↔ s.remaining = 0#8 := BitVec.toNat_inj (y := 0#8)
  simp only [exec_sLoopTest, hzero]

/-- Settles O22. -/
theorem pollSamplesTheFlagBeforeTheBudget : Obligations.PollSamplesTheFlagBeforeTheBudget := by
  refine fun s => ⟨exec_sAwaitPage_set, fun hd hb => ?_, fun hd hb => ?_⟩
  · rw [exec_sAwaitPage_clear hd, budgetLess_of_pos (by omega), if_neg (by omega)]
  · rw [exec_sAwaitPage_clear hd, budgetLess_of_pos (by omega), hb]
    rfl

/-! ## The streaming driver and the drop step (R197, R203) -/

/-- Settles O41. -/
theorem driverStoresOneBytePerStep : Obligations.DriverStoresOneBytePerStep := by
  intro s b rest ha hrx hl
  refine ⟨fun hc => ?_, fun hc => ⟨_, Runs.driverTurn_takes ha hrx hl hc, ?_⟩⟩
  · simp [driverTurn, ha, hrx, hl, Nat.not_lt.2 hc]
  · have hbyte := Runs.destByte_driverTake (b := b) (rest := rest) hc
    refine ⟨by simp, by simp, fun hd => ⟨by simp [driverTake_csumSlot, hd], ?_⟩,
      fun hd => ⟨by simp [driverTake_pageBuf, hd], fun j hj => ?_⟩, by simp, by simp [ha], ?_⟩
    · rw [hd] at hbyte
      exact hbyte
    · rw [hd] at hbyte
      have h := hbyte j
      simp only [Runs.destByte, if_pos hj] at h
      refine Option.some.inj (h.trans ?_)
      split <;> rfl
    · rw [driverTake_eq]

/-- Settles O43. -/
theorem dropTakesOnlyUnsolicitedBytes : Obligations.DropTakesOnlyUnsolicitedBytes := by
  have keeps : ∀ s, unsolicited s = false → dropTurn s = s := fun s h => by simp [dropTurn, h]
  have drops : ∀ s, unsolicited s = true → dropTurn s = { s with line := s.line.tail } :=
    fun s h => by simp [dropTurn, h]
  refine fun s => ⟨?_, fun ha h1 h2 => drops s (by simp [unsolicited, ha, h1, h2]), ?_⟩
  · rintro (⟨hrx, ha, hd⟩ | ⟨hrx, hd, hst⟩)
    · exact keeps s (by simp [unsolicited, hrx, ha, hd])
    · exact keeps s (by rcases hst with hst | hst <;> simp [unsolicited, hrx, hd, hst])
  · rintro (h | h) <;> exact drops s (by simp [unsolicited, h])

/-! ## Commands and operations that always complete -/

/-- Settles O18. -/
theorem singleCommandOperationsComplete : Obligations.SingleCommandOperationsComplete :=
  fun _ => ⟨rfl, rfl, rfl, rfl, rfl, rfl⟩

/-- Settles O20: from a reset accumulator, feeding the block is the checksum by definition. -/
theorem localChecksumIsTheBuffersChecksum : Obligations.LocalChecksumIsTheBuffersChecksum :=
  fun s => ⟨rfl, ⟨_, rfl, rfl⟩, fun h => ⟨_, rfl, by
    show ckFeed s.cfg.val.checksum s.ckAcc s.pageBuf.toList = _
    rw [h, checksum]⟩⟩

/-- Settles O21. -/
theorem rearmsStartTheTransferAnew : Obligations.RearmsStartTheTransferAnew := fun _ => ⟨rfl, rfl, rfl⟩

/-- Settles O34. -/
theorem armForgetsTheTransferBefore : Obligations.ArmForgetsTheTransferBefore := fun _ _ _ _ => rfl

/-- Settles O35. -/
theorem systemPortRecordsTheHandoff : Obligations.SystemPortRecordsTheHandoff := fun _ _ _ => ⟨rfl, rfl, rfl⟩

/-- Settles O37. -/
theorem ungatedPortCommandsComplete : Obligations.UngatedPortCommandsComplete :=
  fun _ _ => ⟨rfl, rfl, ⟨_, rfl, rfl⟩, rfl, rfl, rfl⟩

/-- Settles O39. -/
theorem hostFramesJoinTheLine : Obligations.HostFramesJoinTheLine := fun _ _ _ _ _ => ⟨rfl, rfl, rfl, rfl⟩

/-- Settles O46. -/
theorem eventsChangeOnlySt : Obligations.EventsChangeOnlySt := fun _ => ⟨rfl, rfl, rfl, rfl, rfl⟩

/-! ## Reset, power-on and steps (R30, R245, R261) -/

/-- Settles O1. -/
theorem resetStateHasTheSpecsValues : Obligations.ResetStateHasTheSpecsValues :=
  ⟨rfl, rfl, rfl, rfl, rfl, rfl, rfl, rfl, rfl, rfl, rfl, rfl⟩

/-- Which byte a reset makes indeterminate (R276). -/
theorem readByte_memoryAfterReset (s : State) (a : Nat) : readByte (memoryAfterReset s) a =
    if (s.st = Code.erase ∨ s.st = Code.program ∨ s.st = Code.advance) ∧
        s.cursor.toNat ≤ a ∧ a < s.cursor.toNat + 1024
    then none else readByte s.nvMem a := by
  have hc : committing s = true ↔ s.st = Code.erase ∨ s.st = Code.program ∨ s.st = Code.advance := by
    simp [committing, or_assoc]
  unfold memoryAfterReset
  by_cases h : committing s = true
  · simp only [if_pos h, readByte_forget, hc.1 h, true_and]
  · rw [if_neg h, if_neg fun hn => h (hc.2 hn.1)]

/-- Settles O2. -/
theorem resetEventRestoresTheResetState : Obligations.ResetEventRestoresTheResetState := by
  intro s hn
  obtain ⟨sc, n, hs⟩ := Interfaces.step_of_turn hn
  exact ⟨_, hs, rfl, rfl, rfl, rfl, rfl, rfl, rfl, rfl, rfl, rfl, rfl, rfl, rfl, readByte_memoryAfterReset s⟩

theorem nextEvent_cons {s : State} {e : Event} {rest : List Event} (h : s.script = e :: rest) :
    nextEvent s = (e, { s with script := rest }) := by simp [nextEvent, h]

theorem nextEvent_nil {s : State} (h : s.script = []) :
    nextEvent s = (.turn (Config.freeTurn s.turnCount), { s with turnCount := s.turnCount + 1 }) := by
  simp [nextEvent, h]

/-- The next event happens at the state but for the schedule. -/
theorem nextEvent_state (s : State) : ∃ sc n, (nextEvent s).2 = { s with script := sc, turnCount := n } := by
  obtain ⟨e, rest, -, h⟩ | ⟨-, h⟩ := nextEvent_cases s
  · exact ⟨rest, s.turnCount, by rw [h]⟩
  · exact ⟨s.script, s.turnCount + 1, by rw [h]⟩

/-- With no fault recorded, what comes next is performed at the state with the event used up. -/
theorem step_eq_of_unfaulted {s : State} {e : Event} {o : State → Host.Outcome State Fault Refusal}
    (hf : s.fault = none) (he : (nextEvent s).1 = e)
    (ho : ∀ s, runEvent e s = unlessFaulted s (o s)) : step s = o (nextEvent s).2 := by
  obtain ⟨sc, n, h⟩ := nextEvent_state s
  rw [step, he, ho, unlessFaulted_none (by rw [h]; exact hf)]

/-- Every operation is what the decoder reads from the byte that holds its code (R11, R76). -/
theorem decode_setWidth (c : BitVec 5) : decode .state [c.setWidth 8] = .ok (decodeState c) := by
  have bits : ∀ c : BitVec 5, (c.setWidth 8).extractLsb' 5 3 = 0#3 ∧ (c.setWidth 8).extractLsb' 0 5 = c := by decide
  obtain ⟨hhigh, hlow⟩ := bits c
  simp only [decode, hhigh, hlow, if_true]

/-- Settles O3. -/
theorem sequencerTurnRunsTheOperationSt : Obligations.SequencerTurnRunsTheOperationSt := by
  intro s i hf hn hi
  obtain rfl : fetch s = i := Except.ok.inj ((decode_setWidth s.st).symm.trans hi)
  refine ⟨?_, fun e rest hs => by rw [nextEvent_cons hs], fun hs => by rw [nextEvent_nil hs]⟩
  obtain ⟨sc, n, hstate⟩ := nextEvent_state s
  have hstep := step_eq_of_unfaulted (o := fun s => exec (fetch s) s) hf hn fun _ => rfl
  rw [hstep, hstate]
  rfl

/-- Settles O4. -/
theorem transactionRunsItsDecodedInstruction : Obligations.TransactionRunsItsDecodedInstruction := by
  intro s rest sp bs hf hs
  have hstep := step_eq_of_unfaulted (o := fun s => match decode sp bs with
    | .ok i => exec i s
    | .error e => .refused (.undecodable e)) hf (by rw [nextEvent_cons hs]) fun _ => rfl
  rw [nextEvent_cons hs] at hstep
  refine ⟨fun i hi => ?_, fun e he => ?_⟩
  · rw [hstep, hi]
  · rw [hstep, he]

/-- Settles O5. -/
theorem everyTurnIsItsAgentsStep : Obligations.EveryTurnIsItsAgentsStep := by
  refine ⟨fun s b ready hf =>
      ⟨fun hn => step_eq_of_unfaulted hf hn fun _ => rfl, fun hn => ?_, fun hn => ?_, fun hn => ?_⟩,
    fun s e rest hs => nextEvent_cons hs, fun s hs => ⟨nextEvent_nil hs, step_nil hs⟩⟩
  · obtain ⟨sc, n, hstate⟩ := nextEvent_state s
    rw [step_eq_of_unfaulted (o := fun s => .next (hostAppend [b] s)) hf hn fun _ => rfl, hstate]
    rfl
  · exact step_eq_of_unfaulted (o := fun s => .next (dropTurn s)) hf hn fun _ => rfl
  · exact step_eq_of_unfaulted (o := fun s => .next (transportTurn ready s)) hf hn fun _ => rfl

/-- Every event but the reset turn asks first whether a fault is recorded (R29). -/
theorem runEvent_unlessFaulted {e : Event} (he : e ≠ .turn .reset) (s : State) :
    ∃ o, runEvent e s = unlessFaulted s o := by
  cases e with
  | turn u =>
    cases u with
    | reset => exact absurd rfl he
    | _ => exact ⟨_, rfl⟩
  | transaction => exact ⟨_, rfl⟩

/-- Settles O6. -/
theorem faultedMachineStops : Obligations.FaultedMachineStops := by
  intro s r hf he
  obtain ⟨sc, n, hstate⟩ := nextEvent_state s
  obtain ⟨o, ho⟩ := runEvent_unlessFaulted he (nextEvent s).2
  rw [step, ho, unlessFaulted_some (by rw [hstate]; exact hf)]

/-- Settles O7. -/
theorem powerOnChecksTheParameters : Obligations.PowerOnChecksTheParameters := by
  intro p
  have := Nat.two_pow_pos p.budgetW
  refine ⟨fun h => dif_pos h, fun h => dif_neg h, ?_⟩
  simp only [ParamValues.Ok]
  omega

end Sys2Proof.Operations
